-- ==== Sys2Proof/Word.lean ====
section
/-!
DEFINITION. The word types of the machine and the plainest helpers over them: bytes, 32-bit words, 64-bit scalars,
a slice of a number, and the little-endian byte order of R3.
-/

namespace Sys2Proof

/-- One byte of memory. -/
abbrev Byte := BitVec 8
/-- A word is 4 bytes (R6). -/
abbrev Word := BitVec 32
/-- A scalar register, a code address, a system register (R10, R33). -/
abbrev Dword := BitVec 64

/-- `x[lo + len - 1 : lo]` of a number read as bits (R3). -/
def bitsOf (x lo len : Nat) : Nat := (x >>> lo) % 2 ^ len

/-- The number `n` as `k` bytes, the lowest first (R3). -/
def leBytes : Nat → Nat → List Byte
  | 0, _ => []
  | k + 1, n => BitVec.ofNat 8 n :: leBytes k (n / 256)

/-- The number that bytes, the lowest first, stand for (R3). -/
def leNat : List Byte → Nat
  | [] => 0
  | b :: bs => b.toNat + 256 * leNat bs

/-- The `i`-th bit of a mask over lanes. -/
def laneBit (m : Word) (l : Nat) : Bool := m.getLsbD l

/-- The mask with exactly the lanes of `p` set. -/
def maskOf (p : Nat → Bool) : Word := BitVec.ofNat 32 ((List.range 32).foldl (fun acc l => if p l then acc + 2 ^ l else acc) 0)

/-- The lanes selected by a mask, in ascending order (R8). -/
def lanesOf (m : Word) : List Nat := (List.range 32).filter (fun l => m.getLsbD l)

/-- `x` rounded up to a multiple of `m`. -/
def alignUp (x m : Nat) : Nat := if m = 0 then x else (x + m - 1) / m * m

/-- A partial map from numbers, listed by ascending key. -/
abbrev NMap (α : Type) := List (Nat × α)

/-- The entry of `k`, or the default where none is listed. -/
def NMap.at {α : Type} (m : NMap α) (k : Nat) (d : α) : α :=
  match m with
  | [] => d
  | (j, x) :: rest => if j = k then x else NMap.at rest k d

/-- The map with `x` at `k`. -/
def NMap.put {α : Type} (m : NMap α) (k : Nat) (x : α) : NMap α :=
  match m with
  | [] => [(k, x)]
  | (j, y) :: rest =>
    if j = k then (k, x) :: rest
    else if k < j then (k, x) :: (j, y) :: rest
    else (j, y) :: NMap.put rest k x

end Sys2Proof
end

