-- ==== Sys2Proof/Syntax.lean ====
section
/-!
DEFINITION. The syntax of the machine: the operand records of the nine formats (R47 to R55), the arguments of the
machine's own events, and the one inductive Instr with a constructor for every row of the opcode table. The first 217
rows are instructions. The others are events of the machine and its surroundings, which have no encoding (log entry 1).
-/

namespace Sys2Proof

/-- The guard field of the common header (R35): a predicate and its sense. -/
structure Guard where
  gp : BitVec 4
  gs : Bool
  deriving DecidableEq, Repr

/-- The scalar type field ST (R43). -/
inductive STy where
  | i64 | n64 | i32 | n32 | i16 | n16 | i8 | n8
  deriving DecidableEq, Repr

/-- The ordering field OR (R45). -/
inductive Order where
  | rlx | acq | rel | acqrel
  deriving DecidableEq, Repr

/-- The scope codes of R170, in their order. -/
inductive Scope where
  | core | clus | die | stack | half | pkg | sys | surv
  deriving DecidableEq, Repr

/-- Format V3 (R47). TY and RM are the raw codes; WellFormed says which values an instruction accepts. -/
structure V3 where
  g : Guard
  vd : BitVec 10
  va : BitVec 10
  vb : BitVec 10
  vc : BitVec 10
  ma : Bool
  mb : Bool
  mc : Bool
  ty : BitVec 4
  rm : BitVec 3
  sub : BitVec 8
  pp : BitVec 4
  bs : Bool
  deriving DecidableEq, Repr

/-- Format V2I (R48). -/
structure V2I where
  g : Guard
  vd : BitVec 10
  va : BitVec 10
  ma : Bool
  ty : BitVec 4
  rm : BitVec 3
  sub : BitVec 8
  pp : BitVec 4
  imm : BitVec 32
  deriving DecidableEq, Repr

/-- Format S3 (R49). -/
structure S3 where
  g : Guard
  sd : BitVec 7
  sa : BitVec 7
  sb : BitVec 7
  sc : BitVec 7
  ma : Bool
  mb : Bool
  mc : Bool
  st : STy
  sub : BitVec 8
  bd : BitVec 3
  ba : BitVec 3
  bn : Bool
  deriving DecidableEq, Repr

/-- Format SI (R50). -/
structure SI where
  g : Guard
  sd : BitVec 7
  sa : BitVec 7
  ma : Bool
  st : STy
  sub : BitVec 8
  imm : BitVec 48
  deriving DecidableEq, Repr

/-- Format M (R51). -/
structure FM where
  g : Guard
  d : BitVec 10
  sa : BitVec 7
  vx : BitVec 10
  md : Bool
  ma : Bool
  mx : Bool
  ty : BitVec 4
  ord : Order
  sc : Scope
  sub : BitVec 4
  pp : BitVec 4
  off : BitVec 32
  deriving DecidableEq, Repr

/-- Format B (R52). -/
structure FB where
  g : Guard
  ba : BitVec 3
  bn : Bool
  slot : BitVec 3
  disp : BitVec 42
  sa : BitVec 7
  ma : Bool
  pa : BitVec 4
  sub : BitVec 8
  deriving DecidableEq, Repr

/-- Format X (R53). -/
structure FX where
  g : Guard
  sd : BitVec 7
  sa : BitVec 7
  sb : BitVec 7
  ma : Bool
  mb : Bool
  imm : BitVec 24
  sub : BitVec 8
  pa : BitVec 4
  deriving DecidableEq, Repr

/-- Format A (R54). -/
structure FA where
  g : Guard
  d : BitVec 10
  sa : BitVec 7
  x : BitVec 10
  y : BitVec 10
  ma : Bool
  mx : Bool
  my : Bool
  ty : BitVec 4
  ord : Order
  sc : Scope
  aop : BitVec 4
  off : BitVec 24
  deriving DecidableEq, Repr

/-- Format MX (R55). -/
structure FMX where
  g : Guard
  td : BitVec 3
  ta : BitVec 3
  tb : BitVec 3
  sa : BitVec 7
  sb : BitVec 7
  sc : BitVec 7
  ma : Bool
  mb : Bool
  mc : Bool
  mf : BitVec 4
  rm : BitVec 3
  sub : BitVec 8
  imm : BitVec 16
  deriving DecidableEq, Repr

/-! ### Arguments of the machine's events -/

/-- What issues: one of a core's two schedulers (R284), or a cluster's Bowler (R135). -/
inductive IssueUnit where
  | sched (core sched : Nat)
  | bowler (cluster : Nat)
  deriving DecidableEq, Repr

/-- A node of the coherence tree (R170): level 0 is an L1, 1 a cluster, 2 a die, 3 a stack, 4 a half, 5 the package. -/
structure Node where
  level : Nat
  idx : Nat
  deriving DecidableEq, Repr

/-- A physical word: its KIND (R21), the package that PEER names for KIND 1, and the byte offset of the word. -/
structure PWord where
  kind : Nat
  peer : Nat
  off : Nat
  deriving DecidableEq, Repr

/-- The name of a word in the coherence tree. Levels 0 to 2 track it by ASID and virtual address, the levels above by
its physical address alone (R312), so there `asid` and `va` are not compared. -/
structure WKey where
  asid : Nat
  va : Nat
  pw : PWord
  deriving DecidableEq, Repr

/-- A remote atomic that reaches a home slice from package `pkg` by a Ranman port (R192, R212). `op` is the code of AOP, plus 8 on a signed
type, plus 16, 24 or 32 for FATOM on F32, BF16 or F16; 15 is a compare-and-swap of `x` with `y`. -/
structure AtomReq where
  pkg : Nat
  port : Nat
  off : Nat
  wide : Bool
  op : Nat
  x : Dword
  y : Dword
  deriving DecidableEq, Repr

/-- A parity delta on the fabric (R248): the sending package, its home slice, the sequence number of their stream, the byte
offset in its HBM of the first byte and the XOR of old and new data. `spoils` marks one whose old data was lost (R342), and
`new` the data written, which a holder needs where its parity is lost (log entry 17). -/
structure Delta where
  src : Nat
  stream : Nat
  seq : Nat
  off : Nat
  xor : List Byte
  new : List Byte
  spoils : Bool
  deriving DecidableEq, Repr

/-- What names a delta: its home package and home slice, the holder that receives it, and its sequence number (R248). -/
structure DeltaId where
  home : Nat
  slice : Nat
  holder : Nat
  seq : Nat
  deriving DecidableEq, Repr

/-- A stream of deltas, which has its own numbers (R248): its home package and home slice, and the holder that receives it. -/
structure DeltaStream where
  home : Nat
  slice : Nat
  holder : Nat
  deriving DecidableEq, Repr

/-- Who reads by RD (R181): a stream by its number, or a package that comes by a Ranman port (R24, R192). -/
inductive Reader where
  | hart (h : Nat)
  | peer (pkg port : Nat)
  deriving DecidableEq, Repr

/-- Whose request reaches the coherence tree (R181): a returning access or pending store of a stream by its number, or a
package's KIND 1 access to a byte offset here, which comes by a Ranman port (R24, R192). -/
inductive Asker where
  | hart (h k : Nat)
  | peer (pkg port off : Nat)
  deriving DecidableEq, Repr

/-- A message about a line of a home's memory and a sharer (R191): the home asks this package to drop its copies, or a sharer
has dropped those of a line homed here. -/
inductive InvMsg where
  | drop (home : Nat)
  | dropped (pkg : Nat)
  deriving DecidableEq, Repr

/-- A part of a processor's image in the firmware store, or the context versions of a slot (R324, R325). -/
inductive FlashPart where
  | code (image : Nat)
  | key (image : Nat)
  | sig (image : Nat)
  | secver (image : Nat)
  | ctxVer
  | accepts
  deriving DecidableEq, Repr

/-- Memory that a party outside the package writes: local HBM by the host's RDMA through an Ethernet port (R23, R192), the
host's own memory, a pool device, or a peer's HBM (log entry 17); and the slots A (1) and B (2) of the firmware store, which
firmware writes (R328, log entry 30). -/
inductive OutsideMem where
  | hbm (port pa : Nat)
  | host (addr : Nat)
  | pool (off : Nat)
  | peer (pkg off : Nat)
  | flash (slot : Nat) (part : FlashPart)
  deriving DecidableEq, Repr

/-- Where an uncorrectable error strikes (R340, R341). -/
inductive ErrSite where
  | word (pw : PWord)
  | llc (pw : PWord)
  | copy (n : Node) (w : WKey)
  | scratch (group off : Nat)
  | vreg (h r : Nat)
  | sreg (h r : Nat)
  deriving DecidableEq, Repr

/-- An uncorrectable error: where it strikes, and the core whose access finds it (R341); none where no access does. -/
structure ErrFind where
  site : ErrSite
  core : Option Nat
  deriving DecidableEq, Repr

/-- Why a command fails after issue (R231, R232). -/
structure CmdFail where
  reason : Nat
  kind : Nat
  va : Nat
  off : Nat
  deriving DecidableEq, Repr

/-- A fabric packet to an endpoint (R246, R247): the source package and the number of the transfer there, the handle, the
window offset, the payload with the offsets of its poisoned words (R340), whether the transfer is ticketed, how many
packets it has, and the Ranman port by which it comes from another package (R192). -/
structure Packet where
  src : Nat
  id : Nat
  handle : Dword
  off : Nat
  data : List Byte
  bads : List Nat
  tkt : Bool
  count : Nat
  port : Nat := 0
  deriving DecidableEq, Repr

/-- What arrives of an XFER (R246, R247): a packet, or its target's answer to a packet of transfer `id` at window offset
`off`: performed, refused with a reason and a fault kind (R232, R245), or held because the workgroup is not resident (R245). -/
inductive XferMsg where
  | data (p : Packet)
  | done (id off : Nat)
  | refused (id off reason kind va : Nat)
  | held (id off : Nat)
  deriving DecidableEq, Repr

/-- What arrives of an XGET (R246): a request for bytes of a window, or the target's answer to the request at window offset `off`:
its bytes with the offsets of poisoned words, a refusal, or that it is held (R245). -/
inductive XgetMsg where
  | ask (p : Packet)
  | reply (off : Nat) (data : List Byte) (bads : List Nat)
  | refused (off reason kind va : Nat)
  | held (off : Nat)
  deriving DecidableEq, Repr

/-- A chunk of a copy (R236): the command's number and the chunk's. -/
structure ChunkRef where
  id : Nat
  chunk : Nat
  deriving DecidableEq, Repr

/-- The two packages that a link joins (R242). -/
structure LinkEnds where
  a : Nat
  b : Nat
  deriving DecidableEq, Repr

/-- The rebuild of a word of a protected frame (R342): where it lies, and the XOR of the words it is rebuilt from, or none where
one of them is poisoned (log entry 17). -/
structure WordRebuild where
  off : Nat
  others : Option Word
  deriving DecidableEq, Repr

/-- The rebuild or restoration of a row (R345, R347), with the bytes that the other members give (log entry 17). -/
structure RowData where
  row : Nat
  others : List Byte
  deriving DecidableEq, Repr

/-- What an SPDM requester sends with a request for a signature (R327). -/
structure SpdmNonce where
  nonce : List Byte
  context : List Byte
  deriving DecidableEq, Repr

/-- A place for a workgroup: a flat core index and the first of its wave slots (R12, R18). -/
structure Site where
  core : Nat
  slot : Nat
  deriving DecidableEq, Repr

/-- The writers that R5 names. -/
inductive Writer where
  | hw | sw | fw | crown | host
  deriving DecidableEq, Repr

/-- The algorithms an SPDM requester offers in NEGOTIATE_ALGORITHMS (R327). -/
structure SpdmOffer where
  ecdsaP384 : Bool
  sha384 : Bool
  sha256 : Bool
  /-- The request's bytes after its version and code. -/
  raw : List Byte
  deriving DecidableEq, Repr

/-- The rows of the opcode table, one constructor each. The events that a step of the machine itself may choose stand first. -/
inductive Instr where
  /-- NOP (R36). -/
  | nop
  /-- SMOV (R98). -/
  | smov (f : S3)
  /-- SMOVI (R102). -/
  | smovi (f : SI)
  /-- SMOVI_HI (R102). -/
  | smoviHi (f : SI)
  /-- SADD (R98). -/
  | sadd (f : S3)
  /-- SADDI (R98). -/
  | saddi (f : SI)
  /-- SSUB (R98). -/
  | ssub (f : S3)
  /-- SMUL (R98). -/
  | smul (f : S3)
  /-- SMULH (R98). -/
  | smulh (f : S3)
  /-- SMULHN (R98). -/
  | smulhn (f : S3)
  /-- SDIV (R99). -/
  | sdiv (f : S3)
  /-- SDIVN (R99). -/
  | sdivn (f : S3)
  /-- SREM (R99). -/
  | srem (f : S3)
  /-- SAND (R98). -/
  | sand (f : S3)
  /-- SOR (R98). -/
  | sor (f : S3)
  /-- SXOR (R98). -/
  | sxor (f : S3)
  /-- SANDN (R98). -/
  | sandn (f : S3)
  /-- SSHL (R98). -/
  | sshl (f : S3)
  /-- SSHR (R98). -/
  | sshr (f : S3)
  /-- SSRA (R98). -/
  | ssra (f : S3)
  /-- SROT (R98). -/
  | srot (f : S3)
  /-- SMIN (R98). -/
  | smin (f : S3)
  /-- SMAX (R98). -/
  | smax (f : S3)
  /-- SMINN (R98). -/
  | sminn (f : S3)
  /-- SMAXN (R98). -/
  | smaxn (f : S3)
  /-- SCMP (R100). -/
  | scmp (f : S3)
  /-- SSEL (R98). -/
  | ssel (f : S3)
  /-- SCLZ (R98). -/
  | sclz (f : S3)
  /-- SPOPC (R98). -/
  | spopc (f : S3)
  /-- SBFX (R101). -/
  | sbfx (f : SI)
  /-- SBFI (R101). -/
  | sbfi (f : SI)
  /-- SLEA (R98). -/
  | slea (f : S3)
  /-- SWID (R103). -/
  | swid (f : S3)
  /-- SRR (R104). -/
  | srr (f : SI)
  /-- SRW (R104). -/
  | srw (f : SI)
  /-- SBOOL (R100). -/
  | sbool (f : S3)
  /-- BR (R299). -/
  | br (f : FB)
  /-- BRC (R299). -/
  | brc (f : FB)
  /-- BRI (R299). -/
  | bri (f : FB)
  /-- CALL (R300). -/
  | call (f : FB)
  /-- RET (R300). -/
  | ret (f : FB)
  /-- LOOP (R299). -/
  | loop (f : FB)
  /-- EXIT (R301). -/
  | exit (f : FX)
  /-- MSET_EM (R301). -/
  | msetEm (f : FX)
  /-- MSET_PARKED (R301). -/
  | msetParked (f : FX)
  /-- PARK (R301). -/
  | park (f : FB)
  /-- JOIN (R301). -/
  | join (f : FX)
  /-- LEXIT (R301). -/
  | lexit (f : FX)
  /-- BRANY (R299). -/
  | brany (f : FB)
  /-- BRALL (R299). -/
  | brall (f : FB)
  /-- BAR (R296). -/
  | bar (f : FX)
  /-- BARG (R297). -/
  | barg (f : FX)
  /-- ENQ (R262). -/
  | enq (f : FX)
  /-- YIELD (R302). -/
  | yield (f : FX)
  /-- NAPC (R302). -/
  | napc (f : FX)
  /-- PFH (R302). -/
  | pfh (f : FX)
  /-- VMOV (R108). -/
  | vmov (f : V3)
  /-- VMOVI (R112). -/
  | vmovi (f : V2I)
  /-- VBCAST (R108). -/
  | vbcast (f : V3)
  /-- VLANE (R108). -/
  | vlane (f : V3)
  /-- VADD (R108). -/
  | vadd (f : V3)
  /-- VSUB (R108). -/
  | vsub (f : V3)
  /-- VMUL (R108). -/
  | vmul (f : V3)
  /-- VMULH (R108). -/
  | vmulh (f : V3)
  /-- VMULHN (R108). -/
  | vmulhn (f : V3)
  /-- VMAD (R108). -/
  | vmad (f : V3)
  /-- VAND (R108). -/
  | vand (f : V3)
  /-- VOR (R108). -/
  | vor (f : V3)
  /-- VXOR (R108). -/
  | vxor (f : V3)
  /-- VANDN (R108). -/
  | vandn (f : V3)
  /-- VSHL (R110). -/
  | vshl (f : V3)
  /-- VSHR (R110). -/
  | vshr (f : V3)
  /-- VSRA (R110). -/
  | vsra (f : V3)
  /-- VMIN (R108). -/
  | vmin (f : V3)
  /-- VMAX (R108). -/
  | vmax (f : V3)
  /-- VMINN (R108). -/
  | vminn (f : V3)
  /-- VMAXN (R108). -/
  | vmaxn (f : V3)
  /-- VABS (R108). -/
  | vabs (f : V3)
  /-- VCMP (R109). -/
  | vcmp (f : V3)
  /-- VSEL (R108). -/
  | vsel (f : V3)
  /-- VCLZ (R108). -/
  | vclz (f : V3)
  /-- VPOPC (R108). -/
  | vpopc (f : V3)
  /-- VBFX (R110). -/
  | vbfx (f : V2I)
  /-- VBFI (R110). -/
  | vbfi (f : V2I)
  /-- VADDS (R108). -/
  | vadds (f : V3)
  /-- VSUBS (R108). -/
  | vsubs (f : V3)
  /-- VDOT4 (R111). -/
  | vdot4 (f : V3)
  /-- VPERMB (R111). -/
  | vpermb (f : V3)
  /-- VTAG (R112). -/
  | vtag (f : V2I)
  /-- VTAGR_READ (R112). -/
  | vtagrRead (f : V3)
  /-- VTAGR_SET (R112). -/
  | vtagrSet (f : V3)
  /-- FADD (R113). -/
  | fadd (f : V3)
  /-- FSUB (R113). -/
  | fsub (f : V3)
  /-- FMUL (R113). -/
  | fmul (f : V3)
  /-- FFMA (R113). -/
  | ffma (f : V3)
  /-- FFMS (R113). -/
  | ffms (f : V3)
  /-- FNMA (R113). -/
  | fnma (f : V3)
  /-- FMIN (R114). -/
  | fmin (f : V3)
  /-- FMAX (R114). -/
  | fmax (f : V3)
  /-- FABS (R114). -/
  | fabs (f : V3)
  /-- FNEG (R114). -/
  | fneg (f : V3)
  /-- FCMP (R109). -/
  | fcmp (f : V3)
  /-- FCLASS (R114). -/
  | fclass (f : V3)
  /-- FRND (R113). -/
  | frnd (f : V3)
  /-- FDIV (R115). -/
  | fdiv (f : V3)
  /-- FSQRT (R115). -/
  | fsqrt (f : V3)
  /-- FRCP (R115). -/
  | frcp (f : V3)
  /-- FRSQ (R115). -/
  | frsq (f : V3)
  /-- FEXP2 (R115). -/
  | fexp2 (f : V3)
  /-- FLOG2 (R115). -/
  | flog2 (f : V3)
  /-- FSIN (R115). -/
  | fsin (f : V3)
  /-- FCOS (R115). -/
  | fcos (f : V3)
  /-- FTANH (R115). -/
  | ftanh (f : V3)
  /-- FSIGM (R115). -/
  | fsigm (f : V3)
  /-- FDOT2 (R116). -/
  | fdot2 (f : V3)
  /-- CVT (R117). -/
  | cvt (f : V3)
  /-- CVTI (R117). -/
  | cvti (f : V3)
  /-- CVTF (R119). -/
  | cvtf (f : V3)
  /-- LMUL (R120). -/
  | lmul (f : V3)
  /-- LDIV (R120). -/
  | ldiv (f : V3)
  /-- LSQR (R120). -/
  | lsqr (f : V3)
  /-- LSQRT (R120). -/
  | lsqrt (f : V3)
  /-- LSCALE (R121). -/
  | lscale (f : V3)
  /-- LMAXS (R122). -/
  | lmaxs (f : V3)
  /-- PACK (R123). -/
  | pack (f : V3)
  /-- UNPACK (R123). -/
  | unpack (f : V3)
  /-- LCMP (R124). -/
  | lcmp (f : V3)
  /-- SHFL (R126). -/
  | shfl (f : V3)
  /-- VOTE (R127). -/
  | vote (f : V3)
  /-- VRED (R128). -/
  | vred (f : V3)
  /-- VSCAN (R129). -/
  | vscan (f : V3)
  /-- VRDL (R130). -/
  | vrdl (f : V3)
  /-- VWRL (R130). -/
  | vwrl (f : V3)
  /-- PCOUNT (R131). -/
  | pcount (f : V3)
  /-- PMOV (R131). -/
  | pmov (f : V3)
  /-- PFROMS (R131). -/
  | pfroms (f : V3)
  /-- PTOS (R131). -/
  | ptos (f : V3)
  /-- DMASK (R132). -/
  | dmask (f : V3)
  /-- VCMX (R133). -/
  | vcmx (f : V3)
  /-- VMATCH (R134). -/
  | vmatch (f : V3)
  /-- SLD (R202). -/
  | sld (f : FM)
  /-- SST (R202). -/
  | sst (f : FM)
  /-- VLD (R203). -/
  | vld (f : FM)
  /-- VST (R203). -/
  | vst (f : FM)
  /-- VGLD (R204). -/
  | vgld (f : FM)
  /-- VSCT (R204). -/
  | vsct (f : FM)
  /-- LLD (R206). -/
  | lld (f : FM)
  /-- LST (R206). -/
  | lst (f : FM)
  /-- WLD (R207). -/
  | wld (f : FM)
  /-- TLD (R208). -/
  | tld (f : FM)
  /-- TST (R208). -/
  | tst (f : FM)
  /-- SPUSH (R209). -/
  | spush (f : FM)
  /-- SPOP (R209). -/
  | spop (f : FM)
  /-- VPUSH (R209). -/
  | vpush (f : FM)
  /-- VPOP (R209). -/
  | vpop (f : FM)
  /-- SATOM (R211). -/
  | satom (f : FA)
  /-- SCAS (R211). -/
  | scas (f : FA)
  /-- VATOM (R213). -/
  | vatom (f : FA)
  /-- VCAS (R213). -/
  | vcas (f : FA)
  /-- FATOM (R213). -/
  | fatom (f : FA)
  /-- LATOM (R213). -/
  | latom (f : FA)
  /-- WAITA (R214). -/
  | waita (f : FA)
  /-- ARRW (R216). -/
  | arrw (f : FA)
  /-- TKREQ (R217). -/
  | tkreq (f : FA)
  /-- TKWAIT (R217). -/
  | tkwait (f : FA)
  /-- TKSERVE (R217). -/
  | tkserve (f : FA)
  /-- FENCE (R219). -/
  | fence (f : FX)
  /-- WAITC (R220). -/
  | waitc (f : FX)
  /-- DRAINST (R221). -/
  | drainst (f : FX)
  /-- CWB (R222). -/
  | cwb (f : FM)
  /-- CINV (R222). -/
  | cinv (f : FM)
  /-- CWBI (R222). -/
  | cwbi (f : FM)
  /-- PREF (R223). -/
  | pref (f : FM)
  /-- WRSYNC (R224). -/
  | wrsync (f : FX)
  /-- WAITB (R225). -/
  | waitb (f : FX)
  /-- CPY (R235). -/
  | cpy (f : FA)
  /-- CPY2D (R235). -/
  | cpy2d (f : FA)
  /-- CPYSP (R237). -/
  | cpysp (f : FA)
  /-- CSRWK (R238). -/
  | csrwk (f : FA)
  /-- XFER (R246). -/
  | xfer (f : FA)
  /-- XGET (R246). -/
  | xget (f : FA)
  /-- POOLFILL (R252). -/
  | poolfill (f : FA)
  /-- POOLCOPY (R252). -/
  | poolcopy (f : FA)
  /-- POOLCMP (R252). -/
  | poolcmp (f : FA)
  /-- POOLRED (R252). -/
  | poolred (f : FA)
  /-- MPOST (R141). -/
  | mpost (f : FA)
  /-- MTAKE (R146). -/
  | mtake (f : FMX)
  /-- MDONE (R146). -/
  | mdone (f : FMX)
  /-- MOPA (R150). -/
  | mopa (f : FMX)
  /-- MOPB (R150). -/
  | mopb (f : FMX)
  /-- MZERO (R159). -/
  | mzero (f : FMX)
  /-- MMA (R152). -/
  | mma (f : FMX)
  /-- MMAG (R154). -/
  | mmag (f : FMX)
  /-- MLDC (R160). -/
  | mldc (f : FMX)
  /-- MSTF (R161). -/
  | mstf (f : FMX)
  /-- MSTL (R161). -/
  | mstl (f : FMX)
  /-- MPROG_READ (R158). -/
  | mprogRead (f : FMX)
  /-- MPROG_SET (R158). -/
  | mprogSet (f : FMX)
  /-- MPROG_CLR (R158). -/
  | mprogClr (f : FMX)
  /-- MTAGT_READ (R159). -/
  | mtagtRead (f : FMX)
  /-- MTAGT_SET (R159). -/
  | mtagtSet (f : FMX)
  /-- TRAP (R354). -/
  | trap (f : FX)
  /-- BRK (R354). -/
  | brk (f : FX)
  /-- RFT (R355). -/
  | rft (f : FX)
  /-- SRRP (R356). -/
  | srrp (f : FX)
  /-- SRWP (R356). -/
  | srwp (f : FX)
  /-- WGEND (R357). -/
  | wgend (f : FX)
  /-- GANGEND (R357). -/
  | gangend (f : FX)
  /-- SWAPB (R358). -/
  | swapb (f : FX)
  /-- PURGEV (R359). -/
  | purgev (f : FX)
  /-- XLATINV (R359). -/
  | xlatinv (f : FX)
  /-- SFQPOP (R360). -/
  | sfqpop (f : FX)
  /-- SIDERD (R360). -/
  | siderd (f : FX)
  /-- HALTC_HALT (R361). -/
  | haltcHalt (f : FX)
  /-- HALTC_LIFT (R361). -/
  | haltcLift (f : FX)
  /-- HALTC_RETIRE (R361). -/
  | haltcRetire (f : FX)
  /-- EVPOST (R362). -/
  | evpost (f : FX)
  /-- ISSUE_PICK (R285). -/
  | issuePick (u : IssueUnit)
  /-- RETURNING_ACCESS_COMMIT (R197). -/
  | returningAccessCommit (h : Nat)
  /-- RETURNING_ACCESS_FAULT (R199). -/
  | returningAccessFault (h : Nat)
  /-- STORE_FAULT_REPORT (R200). -/
  | storeFaultReport (h : Nat)
  /-- RD (R181). -/
  | rd (a : Reader) (k : Nat)
  /-- OWN (R181). -/
  | own (a : Asker) (bytes : List Byte)
  /-- COMMAND_COMPLETE (R229). -/
  | commandComplete (id : Nat)
  /-- COMMAND_FAILURE (R231). -/
  | commandFailure (id : Nat) (why : CmdFail)
  /-- BITMAP_CHUNK_SET (R236). -/
  | bitmapChunkSet (c : ChunkRef)
  /-- MPOST_ADMIT (R141). -/
  | mpostAdmit (cluster : Nat)
  /-- BCTL_RESUME (R167). -/
  | bctlResume (cluster : Nat)
  /-- BCTL_SKIP (R167). -/
  | bctlSkip (cluster : Nat)
  /-- BCTL_END (R167). -/
  | bctlEnd (cluster : Nat)
  /-- IFETCH_FILL (R286). -/
  | ifetchFill (die : Nat) (asid : BitVec 16) (line : Dword)
  /-- NAP_EXPIRY (R302). -/
  | napExpiry (h : Nat)
  /-- WAITA_RECHECK (R214). -/
  | waitaRecheck (h : Nat)
  /-- ARRW_WAKE (R216). -/
  | arrwWake (h : Nat)
  /-- TKWAIT_RECHECK (R217). -/
  | tkwaitRecheck (h : Nat)
  /-- LAUNCH_COMPLETE (R261). -/
  | launchComplete (launch : Nat)
  /-- EVENT_ARBITRATION (R280). -/
  | eventArbitration
  /-- OVERFLOW_MARKER (R280). -/
  | overflowMarker
  /-- FWCTL_UPDATE (R328). -/
  | fwctlUpdate
  /-- COMMIT_GO (R328). -/
  | commitGo
  /-- READY_UP (R329). -/
  | readyUp
  /-- PENDING_STORE_FAULT_TRAP (R337). -/
  | pendingStoreFaultTrap (h : Nat)
  /-- COMMAND_FAILURE_TRAP (R231). -/
  | commandFailureTrap (h : Nat)
  /-- SPILL_COMPLETE (R317). -/
  | spillComplete (group : Nat)
  /-- SAVE_COMPLETE (R318). -/
  | saveComplete (gang : Nat)
  /-- STACK_SPILL_FILL (R177). -/
  | stackSpillFill (h : Nat) (spill : Bool)
  /-- PUSH (R183). -/
  | push (n : Node) (w : WKey)
  /-- INV (R181). -/
  | inv (n : Node) (w : WKey)
  /-- EVICTION (R181). -/
  | eviction (n : Node) (w : WKey)
  /-- REMOTE_ATOMIC (R212). -/
  | remoteAtomic (r : AtomReq)
  /-- HOST_RDMA_WRITE (R23). -/
  | hostRdmaWrite (at_ : OutsideMem) (bytes : List Byte)
  /-- HOST_RDMA_READ (R23). -/
  | hostRdmaRead (pa len : Nat)
  /-- REMOTE_INVALIDATION (R191). -/
  | remoteInvalidation (m : InvMsg) (off : Nat)
  /-- FABRIC_TIMEOUT (R244). -/
  | fabricTimeout (req : Nat)
  /-- LINK_FAILURE (R244). -/
  | linkFailure (l : LinkEnds)
  /-- PEER_REJOIN (R349). -/
  | peerRejoin (peer : Nat) (inbound : Bool)
  /-- PARITY_DELTA (R248). -/
  | parityDelta (d : Delta)
  /-- PARITY_DELTA_ACK (R194). -/
  | parityDeltaAck (stream : DeltaStream) (seq : Nat)
  /-- UNCORRECTABLE_ERROR (R340). -/
  | uncorrectableError (e : ErrFind)
  /-- PARITY_WORD_REBUILD (R342). -/
  | parityWordRebuild (w : WordRebuild)
  /-- GROUP_DEGRADED (R345). -/
  | groupDegraded (member : Nat)
  /-- PARITY_ROW_REBUILD (R345). -/
  | parityRowRebuild (r : RowData)
  /-- PARITY_REBUILD_COMPLETE (R345). -/
  | parityRebuildComplete
  /-- PARITY_MEMBER_REPLACE (R347). -/
  | parityMemberReplace (member pkg : Nat)
  /-- PARITY_ROW_RESTORE (R347). -/
  | parityRowRestore (r : RowData)
  /-- DIE_LOSS (R350). -/
  | dieLoss (die : Nat)
  /-- DIE_DIRECTORY_REBUILD (R351). -/
  | dieDirectoryRebuild (die : Nat)
  /-- DIE_REBUILD_COMPLETE (R351). -/
  | dieRebuildComplete (die : Nat)
  /-- RING_PUBLISH (R241). -/
  | ringPublish (h : Nat) (v : Dword)
  /-- XFER_PACKET_ARRIVAL (R247). -/
  | xferPacketArrival (m : XferMsg)
  /-- XGET_READ_REQUEST (R246). -/
  | xgetReadRequest (m : XgetMsg) (n : Nat)
  /-- PACKET_RESEND (R245). -/
  | packetResend (req : Nat)
  /-- EXTENT_RELEASE (R250). -/
  | extentRelease (port base : Nat)
  /-- POOL_DEVICE_COMPLETION (R251). -/
  | poolDeviceCompletion (id : Nat) (err : Bool)
  /-- ENTRY_AGE_RAISE (R143). -/
  | entryAgeRaise (cluster entry : Nat)
  /-- REFRESH_WINDOW_START (R291). -/
  | refreshWindowStart (die : Nat)
  /-- REFRESH_WINDOW_END (R178). -/
  | refreshWindowEnd (die : Nat)
  /-- KICK_SLOT_WRITE (R273). -/
  | kickSlotWrite (q : Nat) (bytes : List Byte)
  /-- QIDX_PROD_WRITE (R273). -/
  | qidxProdWrite (q : Nat) (prod : Word)
  /-- KICK_RUN (R275). -/
  | kickRun (q : Nat)
  /-- KICK_REGISTER (R268). -/
  | kickRegister (q : Nat)
  /-- KICK_UNREGISTER (R275). -/
  | kickUnregister (q : Nat)
  /-- NODE_START (R269). -/
  | nodeStart (replay node : Nat)
  /-- GANG_PLACEMENT (R281). -/
  | gangPlacement (launch : Nat) (sites : List Site)
  /-- HOLDBACK_RESERVE (R282). -/
  | holdbackReserve
  /-- SLICE_EXPIRY (R288). -/
  | sliceExpiry (q : Nat)
  /-- GANG_SAVE (R316). -/
  | gangSave (gang : Nat)
  /-- BANK_SWAP_COMPLETE (R316). -/
  | bankSwapComplete (gang : Nat)
  /-- GANG_RESUME (R320). -/
  | gangResume (gang : Nat) (sites : List Site)
  /-- QCFG_WRITE (R304). -/
  | qcfgWrite (q : Nat) (v : Dword)
  /-- REGISTER_WRITE (R5). -/
  | registerWrite (unit off : Nat) (v : Dword) (by_ : Writer)
  /-- COLD_START (R329). -/
  | coldStart
  /-- WARM_START (R329). -/
  | warmStart
  /-- START_TIMEOUT (R329). -/
  | startTimeout
  /-- WDOG_KICK (R325). -/
  | wdogKick (proc : Nat)
  /-- WATCHDOG_EXPIRY (R325). -/
  | watchdogExpiry (proc : Nat)
  /-- TRIAL_EXPIRY (R328). -/
  | trialExpiry
  /-- SPDM_GET_VERSION (R327). -/
  | spdmGetVersion
  /-- SPDM_GET_CAPABILITIES (R327). -/
  | spdmGetCapabilities
  /-- SPDM_NEGOTIATE_ALGORITHMS (R327). -/
  | spdmNegotiateAlgorithms (offer : SpdmOffer)
  /-- SPDM_GET_DIGESTS (R327). -/
  | spdmGetDigests
  /-- SPDM_GET_CERTIFICATE (R327). -/
  | spdmGetCertificate (slot off len : Nat)
  /-- SPDM_CHALLENGE (R327). -/
  | spdmChallenge (slot : Nat) (x : SpdmNonce)
  /-- SPDM_GET_MEASUREMENTS (R327). -/
  | spdmGetMeasurements (index : Nat) (x : SpdmNonce)
  /-- EXTENT_ADD (R249). -/
  | extentAdd (port base size : Nat)
  /-- POWER_LOSS (R329). -/
  | powerLoss
  deriving DecidableEq, Repr

end Sys2Proof
end

