-- ==== Sys2Proof/WellFormed.lean ====
section
/-!
DEFINITION. Which operand and modifier values each instruction accepts (R38 to R46, R96, R98 to R134, R169, R195 to
R226, R254, R303, R363), as the reason code that R58 gives a word that breaks them. The checks here need the word alone.
Those that need the machine (reasons 4, 5 and 6) stand in Machine/Operands.lean.
-/

namespace Sys2Proof

/-- The reason codes 0 to 3 of R58, which a word earns by itself. -/
inductive Reject where
  | reservedClass | reservedFunction | reservedBits | badModifier
  deriving DecidableEq, Repr

/-- The number of a reason (R58). -/
def Reject.code : Reject → Nat
  | .reservedClass => 0
  | .reservedFunction => 1
  | .reservedBits => 2
  | .badModifier => 3

namespace WellFormed

/-- What stands in a 10-bit register field. A narrower register leaves the high bits zero (R38). -/
inductive Slot where
  | no | vec | scal | pred
  deriving DecidableEq, Repr

/-- The second source of format V3 (R47): absent, a vector, a vector or a broadcast scalar, a scalar alone (BS = 1), or
a predicate. -/
inductive Second where
  | no | vec | vecOrScal | scal | pred
  deriving DecidableEq, Repr

/-- The lower of the two reasons that a word may earn here. -/
def pick (reserved badMod : Bool) : Option Reject :=
  if reserved then some .reservedBits else if badMod then some .badModifier else none

/-- A 10-bit register field with its mode bit breaks R38 or R41. -/
def slotBad (k : Slot) (r : BitVec 10) (m : Bool) : Bool :=
  match k with
  | .no => r != 0 || m
  | .vec => false
  | .scal => r.toNat ≥ 128
  | .pred => r.toNat ≥ 16 || m

/-- A 7-bit register field that may be unused breaks R41. -/
def scalBad (used : Bool) (r : BitVec 7) (m : Bool) : Bool := !used && (r != 0 || m)

/-- The elements in a lane (R87). -/
def perLane (ty : Nat) : Nat :=
  if ty = 7 ∨ ty = 8 ∨ ty = 9 then 4 else if ty = 4 ∨ ty = 5 ∨ ty = 6 ∨ ty = 10 then 2 else 1

/-- What an instruction of format V3 uses. `ty = none` marks a form without a type. -/
structure V3Use where
  vd : Slot := .vec
  va : Slot := .vec
  vb : Second := .no
  vc : Bool := false
  ty : Option (List Nat) := none
  rm : List Nat := [0]
  pp : Bool := false
  subOk : Bool := true
  modOk : Bool := true

/-- The checks of a format V3 form. -/
def v3 (u : V3Use) (f : V3) : Option Reject :=
  let vbBad := match u.vb with
    | .no => f.vb != 0 || f.mb || f.bs
    | .vec => f.bs
    | .vecOrScal => f.bs && f.vb.toNat ≥ 128
    | .scal => f.vb.toNat ≥ 128
    | .pred => f.vb.toNat ≥ 16 || f.mb || f.bs
  let tyBad := match u.ty with
    | none => f.ty != 0
    | some _ => false
  let tyMod := match u.ty with
    | none => false
    | some ts => !ts.contains f.ty.toNat
  pick
    (slotBad u.vd f.vd false || slotBad u.va f.va f.ma || vbBad || (!u.vc && (f.vc != 0 || f.mc)) || tyBad
      || (!u.pp && f.pp != 0) || !u.subOk)
    (tyMod || !u.rm.contains f.rm.toNat || (u.vb == .scal && !f.bs) || !u.modOk)

/-- What an instruction of format V2I uses. -/
structure V2IUse where
  va : Bool := true
  ty : Option (List Nat) := none
  valOk : Bool := true
  modOk : Bool := true

/-- The checks of a format V2I form. -/
def v2i (u : V2IUse) (f : V2I) : Option Reject :=
  pick ((!u.va && (f.va != 0 || f.ma)) || (u.ty.isNone && f.ty != 0) || f.pp != 0 || !u.valOk)
    ((match u.ty with | none => false | some ts => !ts.contains f.ty.toNat) || f.rm != 0 || !u.modOk)

/-- The signed scalar types. -/
def stSigned (s : STy) : Bool := s == .i64 || s == .i32 || s == .i16 || s == .i8

/-- What an instruction of format S3 uses. -/
structure S3Use where
  sd : Bool := true
  sa : Bool := true
  sb : Bool := false
  sc : Bool := false
  bd : Bool := false
  ba : Bool := false
  subOk : Bool := false
  stOk : Bool := true

/-- The checks of a format S3 form. -/
def s3 (u : S3Use) (f : S3) : Option Reject :=
  pick
    (scalBad u.sd f.sd false || scalBad u.sa f.sa f.ma || scalBad u.sb f.sb f.mb || scalBad u.sc f.sc f.mc
      || (!u.bd && f.bd != 0) || (!u.ba && (f.ba != 0 || f.bn)) || !u.subOk)
    (!u.stOk)

/-- The checks of a two-source scalar form whose SUB is zero. -/
def s3two (f : S3) (stOk : Bool := true) : Option Reject := s3 { sb := true, subOk := f.sub == 0, stOk := stOk } f

/-- The checks of a format SI form. -/
def si (sdUsed saUsed valOk stOk : Bool) (f : SI) : Option Reject :=
  pick (scalBad sdUsed f.sd false || scalBad saUsed f.sa f.ma || !valOk) (!stOk)

/-- The system register numbers of R315. -/
def sysAssigned (n : Nat) : Bool :=
  (0x010 ≤ n && n ≤ 0x01A) || (0x020 ≤ n && n ≤ 0x022) || (0x030 ≤ n && n ≤ 0x03A) || (0x040 ≤ n && n ≤ 0x047)

/-- What an instruction of format M uses. `st` says that the type field holds ST. -/
structure FMUse where
  d : Slot := .vec
  dRead : Bool := false
  sa : Bool := true
  vx : Slot := .no
  ty : Option (List Nat) := none
  st : Bool := false
  ords : Option (List Order) := none
  scs : Option (List Scope) := none
  subOk : Bool := true
  pp : Bool := false
  off : Bool := true
  regOk : Bool := true

/-- Every scope (R210). -/
def allScopes : List Scope := [.core, .clus, .die, .stack, .half, .pkg, .sys, .surv]
/-- The vector types (R42). -/
def allTys : List Nat := [0, 1, 2, 3, 4, 5, 6, 7, 8, 9, 10]
/-- Orderings of a load (R210). -/
def ordLoad : List Order := [.rlx, .acq]
/-- Orderings of a store (R210). -/
def ordStore : List Order := [.rlx, .rel]
/-- Every ordering. -/
def ordAll : List Order := [.rlx, .acq, .rel, .acqrel]

/-- The checks of a format M form. -/
def fm (u : FMUse) (f : FM) : Option Reject :=
  pick
    (slotBad u.d f.d (f.md && u.dRead) || (!u.dRead && f.md) || scalBad u.sa f.sa f.ma || slotBad u.vx f.vx f.mx
      || (u.ty.isNone && !u.st && f.ty != 0) || (u.st && f.ty.toNat ≥ 8) || (u.ords.isNone && f.ord != .rlx)
      || (u.scs.isNone && f.sc != .core) || (!u.pp && f.pp != 0) || (!u.off && f.off != 0) || !u.subOk || !u.regOk)
    ((match u.ty with | none => false | some ts => !ts.contains f.ty.toNat)
      || (match u.ords with | none => false | some os => !os.contains f.ord)
      || (match u.scs with | none => false | some ss => !ss.contains f.sc))

/-- What an instruction of format B uses. -/
structure FBUse where
  ba : Bool := false
  target : Bool := true
  sa : Bool := false
  pa : Bool := false
  subOk : Bool := true

/-- The checks of a format B form (R52, R303). -/
def fb (u : FBUse) (f : FB) : Option Reject :=
  pick
    ((!u.ba && (f.ba != 0 || f.bn)) || (!u.target && (f.slot != 0 || f.disp != 0)) || scalBad u.sa f.sa f.ma
      || (!u.pa && f.pa != 0) || !u.subOk)
    (f.slot.toNat > 4)

/-- What an instruction of format X uses. -/
structure FXUse where
  sd : Bool := false
  sa : Bool := false
  sb : Bool := false
  pa : Bool := false
  immOk : Bool := false
  subOk : Bool := false
  modOk : Bool := true

/-- The checks of a format X form. -/
def fx (u : FXUse) (f : FX) : Option Reject :=
  pick
    (scalBad u.sd f.sd false || scalBad u.sa f.sa f.ma || scalBad u.sb f.sb f.mb || (!u.pa && f.pa != 0) || !u.immOk
      || !u.subOk)
    (!u.modOk)

/-- What an instruction of format A uses. -/
structure FAUse where
  d : Slot := .scal
  sa : Bool := true
  x : Slot := .no
  y : Slot := .no
  ty : Option (List Nat) := none
  st : Bool := false
  ords : Option (List Order) := none
  scs : Option (List Scope) := none
  aopOk : Bool := true
  off : Bool := true

/-- The checks of a format A form. -/
def fa (u : FAUse) (f : FA) : Option Reject :=
  pick
    (slotBad u.d f.d false || scalBad u.sa f.sa f.ma || slotBad u.x f.x f.mx || slotBad u.y f.y f.my
      || (u.ty.isNone && !u.st && f.ty != 0) || (u.st && f.ty.toNat ≥ 8) || (u.ords.isNone && f.ord != .rlx)
      || (u.scs.isNone && f.sc != .core) || (!u.off && f.off != 0) || !u.aopOk)
    ((u.st && f.ty.toNat ≥ 4) || (match u.ty with | none => false | some ts => !ts.contains f.ty.toNat)
      || (match u.ords with | none => false | some os => !os.contains f.ord)
      || (match u.scs with | none => false | some ss => !ss.contains f.sc))

/-- What an instruction of format MX uses (R169). -/
structure FMXUse where
  td : Bool := false
  ta : Bool := false
  sa : Bool := false
  sb : Bool := false
  sc : Bool := false
  /-- Sa and Sb are destinations, which have no mode bit (R40, R41). -/
  da : Bool := false
  db : Bool := false
  mf : Option (List Nat) := none
  rm : List Nat := [0]
  subOk : Bool := false
  immOk : Bool := false

/-- The checks of a format MX form. -/
def fmx (u : FMXUse) (f : FMX) : Option Reject :=
  pick
    ((!u.td && f.td != 0) || (!u.ta && f.ta != 0) || f.tb != 0 || scalBad u.sa f.sa f.ma || scalBad u.sb f.sb f.mb
      || scalBad u.sc f.sc f.mc || (u.da && f.ma) || (u.db && f.mb) || (u.mf.isNone && f.mf != 0) || !u.subOk || !u.immOk)
    ((match u.mf with | none => false | some ms => !ms.contains f.mf.toNat) || !u.rm.contains f.rm.toNat)

/-! ### The type sets of R108, R113 and R120 -/

def tInt : List Nat := [1, 2, 10, 8, 9]
def tSint : List Nat := [1, 10, 8]
def tUint : List Nat := [2, 9]
def tFlt : List Nat := [3, 4, 5]
def tLog : List Nat := [6, 7]
def rAll : List Nat := [0, 1, 2, 3]
def rFive : List Nat := [0, 1, 2, 3, 4]

/-- An element-wise form of one source. -/
def v1 (f : V3) (ts : List Nat) (rm : List Nat := [0]) (subOk : Bool := f.sub == 0) : Option Reject :=
  v3 { ty := some ts, rm := rm, subOk := subOk } f
/-- An element-wise form of two sources. -/
def v2 (f : V3) (ts : List Nat) (rm : List Nat := [0]) (subOk : Bool := f.sub == 0) : Option Reject :=
  v3 { vb := .vecOrScal, ty := some ts, rm := rm, subOk := subOk } f
/-- An element-wise form of three sources. -/
def v3src (f : V3) (ts : List Nat) (rm : List Nat := [0]) : Option Reject :=
  v3 { vb := .vecOrScal, vc := true, ty := some ts, rm := rm, subOk := f.sub == 0 } f

/-- A comparison (R109). -/
def vcomp (f : V3) (ts : List Nat) (maxCond : Nat) : Option Reject :=
  v3 { vd := .no, vb := .vecOrScal, ty := some ts, pp := true,
       subOk := f.sub.toNat < 16 && f.sub.toNat % 8 ≤ maxCond && (f.sub.toNat < 8 || perLane f.ty.toNat > 1) } f

/-- The source and target of CVT or CVTI make an accepted pair (R117). -/
def cvtPair (isInt : Bool) (src ty : Nat) : Bool :=
  let lin := fun c => 3 ≤ c && c ≤ 7
  let int := fun c => tInt.contains c
  if isInt then (int src && lin ty) || (lin src && int ty) else lin src && lin ty && src != ty

/-- R86 calls the conversion exact (R117, .sr). -/
def cvtExact (src ty : Nat) : Bool := (ty = 3 && (src = 4 || src = 5)) || (src = 7 && ty = 6)

/-- CVT and CVTI (R117, R118). The bound of h holds for every two formats, whether or not their pair is accepted. -/
def cvt (isInt : Bool) (f : V3) : Option Reject :=
  let src := f.sub.toNat % 16
  let ty := f.ty.toNat
  let h := f.sub.toNat / 16 % 4
  let ps := perLane src
  let pt := perLane ty
  let formats := 1 ≤ src && src ≤ 10 && 1 ≤ ty && ty ≤ 10
  let hOk := if ps = pt then h = 0 else if pt > ps then h < pt / ps else h < ps / pt
  let srOk := 4 ≤ ty && ty ≤ 7 && !cvtExact src ty
  let bsOk := tLog.contains ty && !tLog.contains src
  let pairOk := cvtPair isInt src ty
  v3 { vb := if bsOk || !pairOk then .vecOrScal else .no, ty := some [1, 2, 3, 4, 5, 6, 7, 8, 9, 10],
       rm := if srOk then rFive else rAll,
       subOk := f.sub.toNat < 64 && (hOk || !formats) && (f.bs || (f.vb == 0 && !f.mb)),
       modOk := pairOk } f

/-- LMAXS, SHFL and the other forms with fields of their own stand in `reject?`. -/
def shflOk (f : V3) : Bool :=
  f.sub.toNat < 128 && ((f.sub.toNat / 4 = 0) || (f.sub.toNat % 4 != 0 && !f.bs))
    && (f.bs || f.sub.toNat % 4 = 0 || (f.vb == 0 && !f.mb))

end WellFormed

open WellFormed in
/-- The lowest of the reasons 2 and 3 that a form's operands earn (R58), or none. Events have no encoding. -/
def reject? : Instr → Option Reject
  | .nop => none
  -- class 0x0 (R98 to R104)
  | .smov f => s3 { subOk := f.sub == 0 } f
  | .smovi f => si true false (f.sub == 0) true f
  | .smoviHi f => si true false (f.sub == 1 && f.imm.toNat < 2 ^ 16) (f.st == .i64) f
  | .sadd f => s3two f
  | .saddi f => si true true (f.sub == 0) true f
  | .ssub f => s3two f
  | .smul f => s3two f
  | .smulh f => s3two f (stSigned f.st)
  | .smulhn f => s3two f (!stSigned f.st)
  | .sdiv f => s3two f (stSigned f.st)
  | .sdivn f => s3two f (!stSigned f.st)
  | .srem f => s3two f
  | .sand f => s3two f
  | .sor f => s3two f
  | .sxor f => s3two f
  | .sandn f => s3two f
  | .sshl f => s3two f
  | .sshr f => s3two f
  | .ssra f => s3two f
  | .srot f => s3two f
  | .smin f => s3two f (stSigned f.st)
  | .smax f => s3two f (stSigned f.st)
  | .sminn f => s3two f (!stSigned f.st)
  | .smaxn f => s3two f (!stSigned f.st)
  | .scmp f => s3 { sd := false, sb := true, bd := true, ba := f.sub.toNat / 8 % 4 != 0,
                    subOk := f.sub.toNat < 32 && f.sub.toNat % 8 ≤ 5 } f
  | .ssel f => s3 { sb := true, ba := true, subOk := f.sub == 0 } f
  | .sclz f => s3 { subOk := f.sub == 0 } f
  | .spopc f => s3 { subOk := f.sub == 0 } f
  | .sbfx f => si true true (f.sub == 0 && f.imm.toNat < 2 ^ 13 && f.imm.toNat / 64 ≤ 64)
      (f.st == .i64 || f.st == .n64) f
  | .sbfi f => si true true (f.sub == 0 && f.imm.toNat < 2 ^ 13 && f.imm.toNat / 64 ≤ 64)
      (f.st == .i64 || f.st == .n64) f
  | .slea f => s3 { sb := true, sc := true, subOk := f.sub.toNat < 8 } f
  | .swid f => s3 { sa := false, subOk := f.sub.toNat < 7, stOk := f.st == .n64 } f
  | .srr f => si true false (f.sub == 0 && sysAssigned f.imm.toNat) (f.st == .i64) f
  | .srw f => si false true (f.sub == 0 && sysAssigned f.imm.toNat) (f.st == .i64) f
  | .sbool f =>
    let k := f.sub.toNat
    s3 { sd := k = 5, sa := k = 1 || k = 2 || k = 3 || k = 4, bd := k != 5, ba := k ≤ 3 || k = 5, subOk := k < 8,
         stOk := f.st == .i64 } f
  -- class 0x1 (R303)
  | .br f => fb { subOk := f.sub == 0 } f
  | .brc f => fb { ba := true, subOk := f.sub == 0 } f
  | .bri f => fb { target := false, sa := true, subOk := f.sub == 0 } f
  | .call f => fb { target := f.sub == 0, sa := f.sub == 1, subOk := f.sub.toNat < 2 } f
  | .ret f => fb { target := false, subOk := f.sub == 0 } f
  | .loop f => fb { sa := true, subOk := f.sub == 0 } f
  | .exit f => fx { immOk := f.imm == 0, subOk := f.sub == 0 } f
  | .msetEm f => fx { pa := true, immOk := f.imm == 0, subOk := f.sub == 0 } f
  | .msetParked f => fx { pa := true, immOk := f.imm == 0, subOk := f.sub == 1 } f
  | .park f => fb { pa := true, subOk := f.sub == 0 } f
  | .join f => fx { immOk := f.imm == 0, subOk := f.sub == 0 } f
  | .lexit f => fx { pa := true, immOk := f.imm == 0, subOk := f.sub == 0 } f
  | .brany f => fb { pa := true, subOk := f.sub == 0 } f
  | .brall f => fb { pa := true, subOk := f.sub == 0 } f
  | .bar f => fx { immOk := f.imm.toNat ≤ 16, subOk := f.sub.toNat < 8, modOk := f.sub.toNat != 7 } f
  | .barg f => fx { immOk := f.imm == 0, subOk := f.sub.toNat < 8, modOk := f.sub.toNat != 7 } f
  | .enq f => fx { sd := true, sa := true, sb := true, immOk := f.imm == 0, subOk := f.sub.toNat < 8,
                   modOk := f.sub.toNat != 7 } f
  | .yield f => fx { immOk := f.imm == 0, subOk := f.sub == 0 } f
  | .napc f => fx { sa := true, immOk := f.imm == 0, subOk := f.sub == 0 } f
  | .pfh f => fx { sa := true, sb := true, immOk := f.imm == 0, subOk := f.sub.toNat < 2 } f
  -- class 0x2 (R108 to R112)
  | .vmov f => v3 { va := if f.bs then .no else .vec, vb := if f.bs then .scal else .no, ty := some allTys,
                    subOk := f.sub == 0 } f
  | .vmovi f => v2i { va := false, ty := some allTys, valOk := f.sub == 0 || f.ty == 6 || f.ty == 7 } f
  | .vbcast f => v3 { vb := if f.bs then .scal else .no, ty := some allTys,
                      subOk := if f.bs then f.sub == 0 else f.sub.toNat < 32 } f
  | .vlane f => v3 { va := .no, vb := if f.bs then .scal else .no, ty := some [2], subOk := f.sub == 0 } f
  | .vadd f => v2 f tInt
  | .vsub f => v2 f tInt
  | .vmul f => v2 f tInt
  | .vmulh f => v2 f tSint
  | .vmulhn f => v2 f tUint
  | .vmad f => v3src f tInt
  | .vand f => v2 f allTys
  | .vor f => v2 f allTys
  | .vxor f => v2 f allTys
  | .vandn f => v2 f allTys
  | .vshl f => v2 f tInt
  | .vshr f => v2 f tInt
  | .vsra f => v2 f tInt
  | .vmin f => v2 f tSint
  | .vmax f => v2 f tSint
  | .vminn f => v2 f tUint
  | .vmaxn f => v2 f tUint
  | .vabs f => v1 f tSint
  | .vcmp f => vcomp f tInt 5
  | .vsel f => v3 { vb := .vecOrScal, ty := some allTys, pp := true, subOk := f.sub == 0 } f
  | .vclz f => v1 f tInt
  | .vpopc f => v1 f tInt
  | .vbfx f => v2i { ty := some [1, 2], valOk := f.sub == 0 && f.imm.toNat < 2 ^ 11 && f.imm.toNat / 32 ≤ 32 } f
  | .vbfi f => v2i { ty := some [1, 2], valOk := f.sub == 0 && f.imm.toNat < 2 ^ 11 && f.imm.toNat / 32 ≤ 32 } f
  | .vadds f => v2 f tInt
  | .vsubs f => v2 f tInt
  | .vdot4 f => v3src f [8, 9]
  | .vpermb f => v3src f allTys
  | .vtag f => v2i { valOk := f.sub == 0 && f.imm.toNat < 2 ^ 12,
                     modOk := f.imm.toNat / 256 % 16 ≤ 10 || f.imm.toNat / 256 % 16 = 15 } f
  | .vtagrRead f => v3 { subOk := f.sub == 0 } f
  | .vtagrSet f => v3 { vb := .scal, subOk := f.sub == 1 } f
  -- class 0x3 (R113 to R116)
  | .fadd f => v2 f tFlt rAll
  | .fsub f => v2 f tFlt rAll
  | .fmul f => v2 f tFlt rAll
  | .ffma f => v3src f tFlt rAll
  | .ffms f => v3src f tFlt rAll
  | .fnma f => v3src f tFlt rAll
  | .fmin f => v2 f tFlt
  | .fmax f => v2 f tFlt
  | .fabs f => v1 f tFlt
  | .fneg f => v1 f tFlt
  | .fcmp f => vcomp f tFlt 7
  | .fclass f => v1 f [3]
  | .frnd f => v1 f tFlt rAll
  | .fdiv f => v2 f tFlt rAll
  | .fsqrt f => v1 f tFlt rAll
  | .frcp f => v1 f tFlt
  | .frsq f => v1 f tFlt
  | .fexp2 f => v1 f tFlt
  | .flog2 f => v1 f tFlt
  | .fsin f => v1 f tFlt
  | .fcos f => v1 f tFlt
  | .ftanh f => v1 f tFlt
  | .fsigm f => v1 f tFlt
  | .fdot2 f => v3src f [4, 5] rAll
  -- class 0x4 (R117 to R124)
  | .cvt f => WellFormed.cvt false f
  | .cvti f => WellFormed.cvt true f
  | .cvtf f => v1 f [1, 2, 3] rAll
      (f.sub.toNat < 32 || (64 ≤ f.sub.toNat && f.sub.toNat < 96 && f.ty == 3))
  | .lmul f => v2 f tLog rAll
  | .ldiv f => v2 f tLog rAll
  | .lsqr f => v1 f tLog rAll
  | .lsqrt f => v1 f tLog rAll
  -- DESIGN CHOICE, log entry 73: R121 lists no rounding mode and names RM; the four modes are accepted, .sr is not
  | .lscale f => v3 { vb := if f.bs then .scal else .no, ty := some tLog, rm := rAll, subOk := !f.bs || f.sub == 0 } f
  | .lmaxs f => v3 { ty := some tLog, subOk := f.sub.toNat < 16, modOk := tFlt.contains (f.sub.toNat % 16) } f
  | .pack f => v2 f [8, 9, 10] [0] (f.sub.toNat < 2)
  | .unpack f => v1 f [1, 10] [0] (f.sub.toNat < 2 || (f.ty == 10 && f.sub.toNat < 4))
  | .lcmp f => vcomp f tLog 7
  -- class 0x5 (R126 to R134)
  | .shfl f => v3 { vb := if f.sub.toNat % 4 = 0 || f.bs then .vecOrScal else .no, ty := some allTys,
                    subOk := shflOk f } f
  | .vote f => v3 { vd := .no, va := .pred, pp := true, subOk := f.sub.toNat < 4 } f
  | .vred f => v3 { ty := some [1, 2, 3], rm := if f.ty == 3 then rAll else [0],
                    subOk := f.sub.toNat ≤ 2 || (f.ty != 3 && f.sub.toNat ≤ 5) } f
  | .vscan f => v3 { ty := some [1, 2, 3], rm := if f.ty == 3 then rAll else [0],
                     subOk := f.sub.toNat < 16 && (f.sub.toNat % 8 ≤ 2 || (f.ty != 3 && f.sub.toNat % 8 ≤ 5)) } f
  | .vrdl f => v3 { vd := .scal, vb := if f.bs then .scal else .no, ty := some allTys,
                    subOk := if f.bs then f.sub == 0 else f.sub.toNat < 32 } f
  | .vwrl f => v3 { va := if 32 ≤ f.sub.toNat then .scal else .no, vb := .scal, ty := some allTys,
                    subOk := f.sub.toNat ≤ 32 } f
  | .pcount f => v3 { vd := .scal, va := .no, pp := true, subOk := f.sub.toNat < 2 } f
  | .pmov f => v3 { vd := .no, va := .pred, vb := .pred, pp := true, subOk := f.sub.toNat ≤ 6 } f
  | .pfroms f => v3 { vd := .no, va := .no, vb := .scal, pp := true, subOk := f.sub == 0 } f
  | .ptos f => v3 { vd := .scal, va := .no, pp := true, subOk := f.sub == 0 } f
  | .dmask f => v3 { vd := .no, vb := .scal, ty := some [2], pp := true, subOk := f.sub == 0 } f
  | .vcmx f => v3 { vb := if 64 ≤ f.sub.toNat then .vec else .no, ty := some [1, 2, 3],
                    subOk := f.sub.toNat < 128 && f.sub.toNat % 8 ≤ 4 && f.sub.toNat / 8 % 8 ≤ 6 } f
  | .vmatch f => v3 { ty := some [0], pp := true, subOk := f.sub == 0 } f
  -- class 0x6 (R210)
  | .sld f => fm { d := .scal, st := true, ords := some ordLoad, scs := some allScopes, subOk := f.sub == 0 } f
  | .sst f => fm { d := .scal, dRead := true, st := true, ords := some ordStore, scs := some allScopes,
                   subOk := f.sub == 0 } f
  | .vld f => fm { ty := some allTys, ords := some ordLoad, scs := some allScopes, subOk := f.sub == 0 } f
  | .vst f => fm { dRead := true, ty := some allTys, ords := some ordStore, scs := some allScopes,
                   subOk := f.sub == 0 } f
  | .vgld f => fm { vx := .vec, ty := some allTys, ords := some ordLoad, scs := some allScopes,
                    pp := 8 ≤ f.sub.toNat } f
  | .vsct f => fm { dRead := true, vx := .vec, ty := some allTys, ords := some ordStore, scs := some allScopes,
                    subOk := f.sub.toNat < 8 } f
  | .lld f => fm { d := if 8 ≤ f.sub.toNat then .scal else .vec, vx := if f.sub.toNat % 2 = 1 then .vec else .no,
                   ty := if 8 ≤ f.sub.toNat then none else some allTys, st := 8 ≤ f.sub.toNat,
                   ords := some ordLoad, scs := some [.core],
                   subOk := f.sub.toNat = 0 || f.sub.toNat = 8 || (f.sub.toNat < 8 && f.sub.toNat % 2 = 1) } f
  | .lst f => fm { d := if 8 ≤ f.sub.toNat then .scal else .vec, dRead := true,
                   vx := if f.sub.toNat % 2 = 1 then .vec else .no,
                   ty := if 8 ≤ f.sub.toNat then none else some allTys, st := 8 ≤ f.sub.toNat,
                   ords := some ordStore, scs := some [.core],
                   subOk := f.sub.toNat = 0 || f.sub.toNat = 8 || (f.sub.toNat < 8 && f.sub.toNat % 2 = 1) } f
  | .wld f => fm { ty := some allTys, ords := some [.rlx], scs := some [.core], subOk := f.sub.toNat < 4 } f
  | .tld f => fm { vx := .scal, ty := some allTys, ords := some ordLoad, scs := some allScopes,
                   subOk := f.sub.toNat < 4 } f
  | .tst f => fm { dRead := true, vx := .scal, ty := some allTys, ords := some ordStore, scs := some allScopes,
                   subOk := f.sub.toNat < 4 } f
  | .spush f => fm { d := .scal, dRead := true, sa := false, off := false, subOk := f.sub.toNat < 8,
                     regOk := f.d != 0 && f.d.toNat + f.sub.toNat ≤ 127 } f
  | .spop f => fm { d := .scal, sa := false, off := false, subOk := f.sub.toNat < 8,
                    regOk := f.d != 0 && f.d.toNat + f.sub.toNat ≤ 127 } f
  | .vpush f => fm { dRead := true, sa := false, off := false, subOk := f.sub.toNat < 8 } f
  | .vpop f => fm { sa := false, off := false, subOk := f.sub.toNat < 8 } f
  -- class 0x7 (R218)
  | .satom f => fa { x := .scal, st := true, ords := some ordAll, scs := some allScopes, aopOk := f.aop.toNat ≤ 6 } f
  | .scas f => fa { x := .scal, y := .scal, st := true, ords := some ordAll, scs := some allScopes,
                    aopOk := f.aop == 0 } f
  | .vatom f => fa { d := .vec, x := .vec, y := .vec, ty := some [1, 2], ords := some ordAll, scs := some allScopes,
                     aopOk := f.aop.toNat ≤ 6 } f
  | .vcas f => fa { d := .vec, x := .vec, y := .vec, ty := some [1, 2], ords := some ordAll, scs := some allScopes,
                    aopOk := f.aop == 0 } f
  | .fatom f => fa { d := .vec, x := .vec, y := .vec, ty := some tFlt, ords := some ordAll, scs := some allScopes,
                     aopOk := f.aop.toNat ≤ 2 } f
  | .latom f => fa { d := .vec, x := .vec, y := .vec, ty := some [1, 2], ords := some [.rlx], scs := some [.core],
                     aopOk := f.aop.toNat ≤ 6 } f
  | .waita f => fa { x := .scal, y := .scal, st := true, ords := some ordLoad, scs := some allScopes,
                     aopOk := f.aop.toNat ≤ 5 } f
  | .arrw f => fa { x := .scal, y := .scal, ty := some [0], ords := some [.rlx], scs := some [.core],
                    aopOk := f.aop == 0 } f
  | .tkreq f => fa { ty := some [0], ords := some [.rlx], scs := some [.sys], aopOk := f.aop == 0 } f
  | .tkwait f => fa { x := .scal, y := .scal, ty := some [0], ords := some [.rlx], scs := some [.sys],
                      aopOk := f.aop == 0 } f
  | .tkserve f => fa { x := if f.aop == 1 then .scal else .no, ty := some [0], ords := some [.rlx],
                       scs := some [.sys], aopOk := f.aop.toNat ≤ 1 } f
  -- class 0x8 (R226)
  | .fence f => fx { immOk := f.imm.toNat < 2 ^ 12, subOk := f.sub.toNat < 8 } f
  | .waitc f => fx { immOk := f.imm.toNat < 2 ^ 8, subOk := f.sub == 0 } f
  | .drainst f => fx { immOk := f.imm == 0, subOk := f.sub == 0 } f
  | .cwb f => fm { d := .scal, dRead := true, scs := some allScopes, subOk := f.sub == 0 } f
  | .cinv f => fm { d := .scal, dRead := true, scs := some allScopes, subOk := f.sub == 0 } f
  | .cwbi f => fm { d := .scal, dRead := true, scs := some allScopes, subOk := f.sub == 0 } f
  | .pref f => fm { d := .scal, dRead := true, scs := if 4 ≤ f.sub.toNat then some allScopes else none,
                    subOk := f.sub.toNat < 8 && f.sub.toNat % 4 != 3 } f
  | .wrsync f => fx { sd := true, sa := true, immOk := f.imm == 0, subOk := f.sub.toNat < 2 } f
  | .waitb f => fx { sd := true, sa := true, sb := true, immOk := true, subOk := f.sub.toNat < 4 } f
  -- class 0x9 (R254)
  | .cpy f => fa { x := .scal, y := .scal, ords := some ordStore, scs := some allScopes } f
  | .cpy2d f => fa { x := .scal, y := .scal, ords := some ordStore, scs := some allScopes } f
  | .cpysp f => fa { x := .scal, y := .scal, ty := some [1, 2, 3, 4, 5, 6, 7, 8, 9, 10], ords := some ordStore,
                     scs := some allScopes, aopOk := f.aop.toNat % 8 = 0 } f
  | .csrwk f => fa { x := .scal, y := .scal, ords := some ordStore, scs := some allScopes,
                     aopOk := f.aop.toNat % 8 = 0 } f
  | .xfer f => fa { x := .scal, y := .scal, ords := some ordStore, scs := some [.sys], aopOk := f.aop.toNat < 4 } f
  | .xget f => fa { x := .scal, y := .scal, ords := some ordStore, scs := some [.sys], aopOk := f.aop.toNat < 2 } f
  | .poolfill f => fa { x := .scal, y := .scal, ords := some ordStore, scs := some [.sys],
                        aopOk := f.aop.toNat % 8 = 0 } f
  | .poolcopy f => fa { x := .scal, y := .scal, ords := some ordStore, scs := some [.sys],
                        aopOk := f.aop.toNat % 8 = 0 } f
  | .poolcmp f => fa { x := .scal, y := .scal, ords := some [.rlx], scs := some [.sys],
                       aopOk := f.aop.toNat % 8 = 0 } f
  | .poolred f => fa { x := .scal, y := .scal, ty := some [1, 3], ords := some ordStore, scs := some [.sys],
                       aopOk := f.aop.toNat % 8 ≤ 2 } f
  | .mpost f => fa { sa := false, x := .scal, aopOk := f.aop.toNat < 8, off := false } f
  -- class 0xA (R169)
  | .mtake f => fmx { sa := true, sb := true, da := true, db := true, subOk := f.sub.toNat < 2, immOk := f.imm == 0 } f
  | .mdone f => fmx { sa := true, sb := true, subOk := f.sub == 0, immOk := f.imm == 0 } f
  | .mopa f => fmx { sa := true, sb := true, sc := true, mf := some [0, 1, 2, 3], subOk := f.sub == 0,
                     immOk := f.imm.toNat < 256 } f
  | .mopb f => fmx { sa := true, sb := true, sc := true, mf := some [0, 1, 2, 3], subOk := f.sub == 0,
                     immOk := f.imm.toNat < 256 } f
  | .mzero f => fmx { td := true, subOk := f.sub == 0, immOk := f.imm == 0 } f
  | .mma f => fmx { td := true, subOk := f.sub == 0, immOk := f.imm == 0 } f
  | .mmag f => fmx { sa := true, sb := true, sc := true, subOk := f.sub == 0, immOk := f.imm == 0 } f
  | .mldc f => fmx { td := true, sa := true, sb := true, sc := true, mf := some [2, 3, 4], subOk := f.sub == 0,
                     immOk := f.imm == 0 } f
  | .mstf f => fmx { ta := true, sa := true, sb := true, sc := true, mf := some [2, 3, 4],
                     rm := if f.mf == 4 then [0] else rFive, subOk := f.sub == 0, immOk := f.imm == 0 } f
  | .mstl f => fmx { ta := true, sa := true, sb := true, sc := true, mf := some [0, 1], rm := rFive,
                     subOk := f.sub == 0, immOk := f.imm.toNat < 256 } f
  | .mprogRead f => fmx { sa := true, da := true, subOk := f.sub == 0, immOk := f.imm == 0 } f
  | .mprogSet f => fmx { sb := true, subOk := f.sub == 1, immOk := f.imm == 0 } f
  | .mprogClr f => fmx { subOk := f.sub == 2, immOk := f.imm == 0 } f
  | .mtagtRead f => fmx { ta := true, sa := true, da := true, subOk := f.sub == 0, immOk := f.imm == 0 } f
  | .mtagtSet f => fmx { td := true, sb := true, subOk := f.sub == 1, immOk := f.imm == 0 } f
  -- class 0xC (R363)
  | .trap f => fx { immOk := f.imm.toNat < 256, subOk := f.sub == 0 } f
  | .brk f => fx { immOk := f.imm.toNat < 256, subOk := f.sub == 0 } f
  | .rft f => fx { immOk := f.imm == 0, subOk := f.sub.toNat < 2 } f
  | .srrp f => fx { sd := true, immOk := sysAssigned f.imm.toNat, subOk := f.sub == 0 } f
  | .srwp f => fx { sa := true, immOk := sysAssigned f.imm.toNat, subOk := f.sub == 0 } f
  | .wgend f => fx { immOk := f.imm == 0, subOk := f.sub.toNat < 2 } f
  | .gangend f => fx { immOk := f.imm == 0, subOk := f.sub.toNat < 2 } f
  | .swapb f => fx { immOk := f.imm == 0, subOk := f.sub == 0 } f
  | .purgev f => fx { sa := true, sb := true, immOk := f.imm.toNat < 2 ^ 18, subOk := f.sub == 0 } f
  | .xlatinv f => fx { sa := true, sb := true, immOk := f.imm.toNat < 2 ^ 18, subOk := f.sub == 0 } f
  | .sfqpop f => fx { sd := true, sa := true, immOk := f.imm == 0,
                      subOk := f.sub.toNat < 2 && 1 ≤ f.sd.toNat && f.sd.toNat ≤ 124 } f
  | .siderd f => fx { sd := true, sa := true, immOk := f.imm.toNat < 8, subOk := f.sub.toNat < 2 } f
  | .haltcHalt f => fx { sd := true, sa := true, immOk := f.imm == 0, subOk := f.sub == 0 } f
  | .haltcLift f => fx { sd := true, sa := true, immOk := f.imm == 0, subOk := f.sub == 1 } f
  | .haltcRetire f => fx { sd := true, sa := true, immOk := f.imm == 0, subOk := f.sub == 2 } f
  | .evpost f => fx { sa := true, sb := true, immOk := f.imm == 0, subOk := f.sub == 0 } f
  -- events have no encoding (log entry 1)
  | .issuePick .. | .pendingStoreFaultTrap .. | .returningAccessCommit .. | .returningAccessFault ..
  | .storeFaultReport .. | .stackSpillFill .. | .rd .. | .own .. | .push .. | .inv .. | .eviction ..
  | .remoteAtomic .. | .hostRdmaWrite .. | .hostRdmaRead .. | .remoteInvalidation .. | .fabricTimeout ..
  | .linkFailure .. | .peerRejoin .. | .parityDelta .. | .parityDeltaAck .. | .uncorrectableError ..
  | .parityWordRebuild .. | .groupDegraded .. | .parityRowRebuild .. | .parityRebuildComplete ..
  | .parityMemberReplace .. | .parityRowRestore .. | .dieLoss .. | .dieDirectoryRebuild ..
  | .dieRebuildComplete .. | .commandComplete .. | .commandFailure .. | .commandFailureTrap ..
  | .bitmapChunkSet .. | .ringPublish .. | .xferPacketArrival .. | .xgetReadRequest .. | .packetResend ..
  | .extentRelease .. | .poolDeviceCompletion .. | .mpostAdmit .. | .entryAgeRaise .. | .bctlResume ..
  | .bctlSkip .. | .bctlEnd .. | .ifetchFill .. | .napExpiry .. | .waitaRecheck .. | .arrwWake ..
  | .refreshWindowStart .. | .refreshWindowEnd .. | .kickSlotWrite .. | .qidxProdWrite .. | .kickRun ..
  | .kickRegister .. | .kickUnregister .. | .nodeStart .. | .launchComplete .. | .gangPlacement ..
  | .holdbackReserve .. | .sliceExpiry .. | .gangSave .. | .bankSwapComplete .. | .spillComplete ..
  | .saveComplete .. | .gangResume .. | .eventArbitration .. | .overflowMarker .. | .qcfgWrite ..
  | .registerWrite .. | .coldStart .. | .warmStart .. | .readyUp .. | .startTimeout .. | .wdogKick ..
  | .watchdogExpiry .. | .fwctlUpdate .. | .commitGo .. | .trialExpiry .. | .spdmGetVersion ..
  | .spdmGetCapabilities .. | .spdmNegotiateAlgorithms .. | .spdmGetDigests .. | .spdmGetCertificate ..
  | .spdmChallenge .. | .spdmGetMeasurements .. | .tkwaitRecheck .. | .extentAdd .. | .powerLoss .. => none

/-- An instruction whose operands and modifiers R58 accepts as far as the word alone shows. -/
def Instr.wellFormed (i : Instr) : Bool := (reject? i).isNone

end Sys2Proof
end

