-- ==== Sys2Proof/Decode.lean ====
section
/-!
DEFINITION. The decoder, total on 96-bit words (R35, R36, R47 to R58), the fetch line's fields (R28, R29), and the
encoder written from the same tables.
-/

namespace Sys2Proof

/-! ### Small fields -/

/-- ST (R43). -/
def stOf (b : BitVec 3) : STy :=
  if b = 0 then .i64 else if b = 1 then .n64 else if b = 2 then .i32 else if b = 3 then .n32
  else if b = 4 then .i16 else if b = 5 then .n16 else if b = 6 then .i8 else .n8
/-- The code of ST (R43). -/
def stCode : STy → BitVec 3
  | .i64 => 0 | .n64 => 1 | .i32 => 2 | .n32 => 3 | .i16 => 4 | .n16 => 5 | .i8 => 6 | .n8 => 7
/-- OR (R45). -/
def ordOf (b : BitVec 2) : Order := if b = 0 then .rlx else if b = 1 then .acq else if b = 2 then .rel else .acqrel
/-- The code of OR (R45). -/
def ordCode : Order → BitVec 2
  | .rlx => 0 | .acq => 1 | .rel => 2 | .acqrel => 3
/-- SC (R170). -/
def scopeOfCode (b : BitVec 3) : Scope :=
  if b = 0 then .core else if b = 1 then .clus else if b = 2 then .die else if b = 3 then .stack
  else if b = 4 then .half else if b = 5 then .pkg else if b = 6 then .sys else .surv
/-- The code of SC (R170). -/
def scopeCode : Scope → BitVec 3
  | .core => 0 | .clus => 1 | .die => 2 | .stack => 3 | .half => 4 | .pkg => 5 | .sys => 6 | .surv => 7
/-- The guard field of the header (R35). -/
def guardOf (w : BitVec 96) : Guard := { gp := w.extractLsb' 82 4, gs := w.getLsbD 81 }

/-! ### The nine formats -/

/-- The fields of format V3 (R47). -/
def decV3 (w : BitVec 96) : V3 :=
  { g := guardOf w, vd := w.extractLsb' 71 10,
    va := w.extractLsb' 61 10,
    vb := w.extractLsb' 51 10,
    vc := w.extractLsb' 41 10,
    ma := w.getLsbD 40,
    mb := w.getLsbD 39,
    mc := w.getLsbD 38,
    ty := w.extractLsb' 34 4,
    rm := w.extractLsb' 31 3,
    sub := w.extractLsb' 23 8,
    pp := w.extractLsb' 19 4,
    bs := w.getLsbD 18 }

/-- The word of a format V3 form whose class and function code are `c` (R47). -/
def encV3 (c : BitVec 10) (f : V3) : BitVec 96 :=
  BitVec.cast (by rfl) (c ++ f.g.gp ++ BitVec.ofBool f.g.gs ++ f.vd ++ f.va ++ f.vb ++ f.vc ++ BitVec.ofBool f.ma ++ BitVec.ofBool f.mb ++
    BitVec.ofBool f.mc ++ f.ty ++ f.rm ++ f.sub ++ f.pp ++ BitVec.ofBool f.bs ++
    (0#18))

/-- The fields of format V2I (R48). -/
def decV2I (w : BitVec 96) : V2I :=
  { g := guardOf w, vd := w.extractLsb' 71 10,
    va := w.extractLsb' 61 10,
    ma := w.getLsbD 60,
    ty := w.extractLsb' 56 4,
    rm := w.extractLsb' 53 3,
    sub := w.extractLsb' 45 8,
    pp := w.extractLsb' 41 4,
    imm := w.extractLsb' 9 32 }

/-- The word of a format V2I form whose class and function code are `c` (R48). -/
def encV2I (c : BitVec 10) (f : V2I) : BitVec 96 :=
  BitVec.cast (by rfl) (c ++ f.g.gp ++ BitVec.ofBool f.g.gs ++ f.vd ++ f.va ++ BitVec.ofBool f.ma ++ f.ty ++ f.rm ++ f.sub ++
    f.pp ++ f.imm ++ (0#9))

/-- The fields of format S3 (R49). -/
def decS3 (w : BitVec 96) : S3 :=
  { g := guardOf w, sd := w.extractLsb' 74 7,
    sa := w.extractLsb' 67 7,
    sb := w.extractLsb' 60 7,
    sc := w.extractLsb' 53 7,
    ma := w.getLsbD 52,
    mb := w.getLsbD 51,
    mc := w.getLsbD 50,
    st := stOf (w.extractLsb' 47 3),
    sub := w.extractLsb' 39 8,
    bd := w.extractLsb' 36 3,
    ba := w.extractLsb' 33 3,
    bn := w.getLsbD 32 }

/-- The word of a format S3 form whose class and function code are `c` (R49). -/
def encS3 (c : BitVec 10) (f : S3) : BitVec 96 :=
  BitVec.cast (by rfl) (c ++ f.g.gp ++ BitVec.ofBool f.g.gs ++ f.sd ++ f.sa ++ f.sb ++ f.sc ++ BitVec.ofBool f.ma ++ BitVec.ofBool f.mb ++
    BitVec.ofBool f.mc ++ stCode f.st ++ f.sub ++ f.bd ++ f.ba ++ BitVec.ofBool f.bn ++
    (0#32))

/-- The fields of format SI (R50). -/
def decSI (w : BitVec 96) : SI :=
  { g := guardOf w, sd := w.extractLsb' 74 7,
    sa := w.extractLsb' 67 7,
    ma := w.getLsbD 66,
    st := stOf (w.extractLsb' 63 3),
    sub := w.extractLsb' 55 8,
    imm := w.extractLsb' 7 48 }

/-- The word of a format SI form whose class and function code are `c` (R50). -/
def encSI (c : BitVec 10) (f : SI) : BitVec 96 :=
  BitVec.cast (by rfl) (c ++ f.g.gp ++ BitVec.ofBool f.g.gs ++ f.sd ++ f.sa ++ BitVec.ofBool f.ma ++ stCode f.st ++ f.sub ++ f.imm ++
    (0#7))

/-- The fields of format FM (R51). -/
def decFM (w : BitVec 96) : FM :=
  { g := guardOf w, d := w.extractLsb' 71 10,
    sa := w.extractLsb' 64 7,
    vx := w.extractLsb' 54 10,
    md := w.getLsbD 53,
    ma := w.getLsbD 52,
    mx := w.getLsbD 51,
    ty := w.extractLsb' 47 4,
    ord := ordOf (w.extractLsb' 45 2),
    sc := scopeOfCode (w.extractLsb' 42 3),
    sub := w.extractLsb' 38 4,
    pp := w.extractLsb' 34 4,
    off := w.extractLsb' 2 32 }

/-- The word of a format FM form whose class and function code are `c` (R51). -/
def encFM (c : BitVec 10) (f : FM) : BitVec 96 :=
  BitVec.cast (by rfl) (c ++ f.g.gp ++ BitVec.ofBool f.g.gs ++ f.d ++ f.sa ++ f.vx ++ BitVec.ofBool f.md ++ BitVec.ofBool f.ma ++ BitVec.ofBool f.mx ++
    f.ty ++ ordCode f.ord ++ scopeCode f.sc ++ f.sub ++ f.pp ++ f.off ++
    (0#2))

/-- The fields of format FB (R52). -/
def decFB (w : BitVec 96) : FB :=
  { g := guardOf w, ba := w.extractLsb' 78 3,
    bn := w.getLsbD 77,
    slot := w.extractLsb' 74 3,
    disp := w.extractLsb' 32 42,
    sa := w.extractLsb' 25 7,
    ma := w.getLsbD 24,
    pa := w.extractLsb' 20 4,
    sub := w.extractLsb' 12 8 }

/-- The word of a format FB form whose class and function code are `c` (R52). -/
def encFB (c : BitVec 10) (f : FB) : BitVec 96 :=
  BitVec.cast (by rfl) (c ++ f.g.gp ++ BitVec.ofBool f.g.gs ++ f.ba ++ BitVec.ofBool f.bn ++ f.slot ++ f.disp ++ f.sa ++ BitVec.ofBool f.ma ++
    f.pa ++ f.sub ++ (0#12))

/-- The fields of format FX (R53). -/
def decFX (w : BitVec 96) : FX :=
  { g := guardOf w, sd := w.extractLsb' 74 7,
    sa := w.extractLsb' 67 7,
    sb := w.extractLsb' 60 7,
    ma := w.getLsbD 59,
    mb := w.getLsbD 58,
    imm := w.extractLsb' 34 24,
    sub := w.extractLsb' 26 8,
    pa := w.extractLsb' 22 4 }

/-- The word of a format FX form whose class and function code are `c` (R53). -/
def encFX (c : BitVec 10) (f : FX) : BitVec 96 :=
  BitVec.cast (by rfl) (c ++ f.g.gp ++ BitVec.ofBool f.g.gs ++ f.sd ++ f.sa ++ f.sb ++ BitVec.ofBool f.ma ++ BitVec.ofBool f.mb ++ f.imm ++
    f.sub ++ f.pa ++ (0#22))

/-- The fields of format FA (R54). -/
def decFA (w : BitVec 96) : FA :=
  { g := guardOf w, d := w.extractLsb' 71 10,
    sa := w.extractLsb' 64 7,
    x := w.extractLsb' 54 10,
    y := w.extractLsb' 44 10,
    ma := w.getLsbD 43,
    mx := w.getLsbD 42,
    my := w.getLsbD 41,
    ty := w.extractLsb' 37 4,
    ord := ordOf (w.extractLsb' 35 2),
    sc := scopeOfCode (w.extractLsb' 32 3),
    aop := w.extractLsb' 28 4,
    off := w.extractLsb' 4 24 }

/-- The word of a format FA form whose class and function code are `c` (R54). -/
def encFA (c : BitVec 10) (f : FA) : BitVec 96 :=
  BitVec.cast (by rfl) (c ++ f.g.gp ++ BitVec.ofBool f.g.gs ++ f.d ++ f.sa ++ f.x ++ f.y ++ BitVec.ofBool f.ma ++ BitVec.ofBool f.mx ++
    BitVec.ofBool f.my ++ f.ty ++ ordCode f.ord ++ scopeCode f.sc ++ f.aop ++ f.off ++
    (0#4))

/-- The fields of format FMX (R55). -/
def decFMX (w : BitVec 96) : FMX :=
  { g := guardOf w, td := w.extractLsb' 78 3,
    ta := w.extractLsb' 75 3,
    tb := w.extractLsb' 72 3,
    sa := w.extractLsb' 65 7,
    sb := w.extractLsb' 58 7,
    sc := w.extractLsb' 51 7,
    ma := w.getLsbD 50,
    mb := w.getLsbD 49,
    mc := w.getLsbD 48,
    mf := w.extractLsb' 44 4,
    rm := w.extractLsb' 41 3,
    sub := w.extractLsb' 33 8,
    imm := w.extractLsb' 17 16 }

/-- The word of a format FMX form whose class and function code are `c` (R55). -/
def encFMX (c : BitVec 10) (f : FMX) : BitVec 96 :=
  BitVec.cast (by rfl) (c ++ f.g.gp ++ BitVec.ofBool f.g.gs ++ f.td ++ f.ta ++ f.tb ++ f.sa ++ f.sb ++ f.sc ++
    BitVec.ofBool f.ma ++ BitVec.ofBool f.mb ++ BitVec.ofBool f.mc ++ f.mf ++ f.rm ++ f.sub ++
    f.imm ++ (0#17))

/-! ### The opcode map (R56) -/

/-- One function code: CLASS :: FN, how many low bits of its format are reserved, and the instruction that a word is. -/
structure OpRow where
  code : Nat
  low : Nat
  make : BitVec 96 → Instr

/-- Class 0x0. -/
def opsClass0a : List OpRow := [
  ⟨0x001, 32, fun w => .smov (decS3 w)⟩,
  ⟨0x002, 7, fun w => let f := decSI w; if f.sub == 1 then .smoviHi f else .smovi f⟩,
  ⟨0x003, 32, fun w => .sadd (decS3 w)⟩,
  ⟨0x004, 7, fun w => .saddi (decSI w)⟩,
  ⟨0x005, 32, fun w => .ssub (decS3 w)⟩,
  ⟨0x006, 32, fun w => .smul (decS3 w)⟩,
  ⟨0x007, 32, fun w => .smulh (decS3 w)⟩,
  ⟨0x008, 32, fun w => .smulhn (decS3 w)⟩,
  ⟨0x009, 32, fun w => .sdiv (decS3 w)⟩,
  ⟨0x00A, 32, fun w => .sdivn (decS3 w)⟩,
  ⟨0x00B, 32, fun w => .srem (decS3 w)⟩,
  ⟨0x00C, 32, fun w => .sand (decS3 w)⟩,
  ⟨0x00D, 32, fun w => .sor (decS3 w)⟩,
  ⟨0x00E, 32, fun w => .sxor (decS3 w)⟩,
  ⟨0x00F, 32, fun w => .sandn (decS3 w)⟩,
  ⟨0x010, 32, fun w => .sshl (decS3 w)⟩,
  ⟨0x011, 32, fun w => .sshr (decS3 w)⟩,
  ⟨0x012, 32, fun w => .ssra (decS3 w)⟩]

/-- Class 0x0. -/
def opsClass0b : List OpRow := [
  ⟨0x013, 32, fun w => .srot (decS3 w)⟩,
  ⟨0x014, 32, fun w => .smin (decS3 w)⟩,
  ⟨0x015, 32, fun w => .smax (decS3 w)⟩,
  ⟨0x016, 32, fun w => .sminn (decS3 w)⟩,
  ⟨0x017, 32, fun w => .smaxn (decS3 w)⟩,
  ⟨0x018, 32, fun w => .scmp (decS3 w)⟩,
  ⟨0x019, 32, fun w => .ssel (decS3 w)⟩,
  ⟨0x01A, 32, fun w => .sclz (decS3 w)⟩,
  ⟨0x01B, 32, fun w => .spopc (decS3 w)⟩,
  ⟨0x01C, 7, fun w => .sbfx (decSI w)⟩,
  ⟨0x01D, 7, fun w => .sbfi (decSI w)⟩,
  ⟨0x01E, 32, fun w => .slea (decS3 w)⟩,
  ⟨0x01F, 32, fun w => .swid (decS3 w)⟩,
  ⟨0x020, 7, fun w => .srr (decSI w)⟩,
  ⟨0x021, 7, fun w => .srw (decSI w)⟩,
  ⟨0x022, 32, fun w => .sbool (decS3 w)⟩]

/-- Class 0x1. -/
def opsClass1a : List OpRow := [
  ⟨0x040, 12, fun w => .br (decFB w)⟩,
  ⟨0x041, 12, fun w => .brc (decFB w)⟩,
  ⟨0x042, 12, fun w => .bri (decFB w)⟩,
  ⟨0x043, 12, fun w => .call (decFB w)⟩,
  ⟨0x044, 12, fun w => .ret (decFB w)⟩,
  ⟨0x045, 12, fun w => .loop (decFB w)⟩,
  ⟨0x046, 22, fun w => .exit (decFX w)⟩,
  ⟨0x047, 22, fun w => let f := decFX w; if f.sub == 1 then .msetParked f else .msetEm f⟩,
  ⟨0x048, 12, fun w => .park (decFB w)⟩,
  ⟨0x049, 22, fun w => .join (decFX w)⟩,
  ⟨0x04A, 22, fun w => .lexit (decFX w)⟩,
  ⟨0x04B, 12, fun w => .brany (decFB w)⟩,
  ⟨0x04C, 12, fun w => .brall (decFB w)⟩,
  ⟨0x04D, 22, fun w => .bar (decFX w)⟩,
  ⟨0x04E, 22, fun w => .barg (decFX w)⟩,
  ⟨0x04F, 22, fun w => .enq (decFX w)⟩,
  ⟨0x050, 22, fun w => .yield (decFX w)⟩,
  ⟨0x051, 22, fun w => .napc (decFX w)⟩]

/-- Class 0x1. -/
def opsClass1b : List OpRow := [
  ⟨0x052, 22, fun w => .pfh (decFX w)⟩]

/-- Class 0x2. -/
def opsClass2a : List OpRow := [
  ⟨0x080, 18, fun w => .vmov (decV3 w)⟩,
  ⟨0x081, 9, fun w => .vmovi (decV2I w)⟩,
  ⟨0x082, 18, fun w => .vbcast (decV3 w)⟩,
  ⟨0x083, 18, fun w => .vlane (decV3 w)⟩,
  ⟨0x084, 18, fun w => .vadd (decV3 w)⟩,
  ⟨0x085, 18, fun w => .vsub (decV3 w)⟩,
  ⟨0x086, 18, fun w => .vmul (decV3 w)⟩,
  ⟨0x087, 18, fun w => .vmulh (decV3 w)⟩,
  ⟨0x088, 18, fun w => .vmulhn (decV3 w)⟩,
  ⟨0x089, 18, fun w => .vmad (decV3 w)⟩,
  ⟨0x08A, 18, fun w => .vand (decV3 w)⟩,
  ⟨0x08B, 18, fun w => .vor (decV3 w)⟩,
  ⟨0x08C, 18, fun w => .vxor (decV3 w)⟩,
  ⟨0x08D, 18, fun w => .vandn (decV3 w)⟩,
  ⟨0x08E, 18, fun w => .vshl (decV3 w)⟩,
  ⟨0x08F, 18, fun w => .vshr (decV3 w)⟩,
  ⟨0x090, 18, fun w => .vsra (decV3 w)⟩,
  ⟨0x091, 18, fun w => .vmin (decV3 w)⟩]

/-- Class 0x2. -/
def opsClass2b : List OpRow := [
  ⟨0x092, 18, fun w => .vmax (decV3 w)⟩,
  ⟨0x093, 18, fun w => .vminn (decV3 w)⟩,
  ⟨0x094, 18, fun w => .vmaxn (decV3 w)⟩,
  ⟨0x095, 18, fun w => .vabs (decV3 w)⟩,
  ⟨0x096, 18, fun w => .vcmp (decV3 w)⟩,
  ⟨0x097, 18, fun w => .vsel (decV3 w)⟩,
  ⟨0x098, 18, fun w => .vclz (decV3 w)⟩,
  ⟨0x099, 18, fun w => .vpopc (decV3 w)⟩,
  ⟨0x09A, 9, fun w => .vbfx (decV2I w)⟩,
  ⟨0x09B, 9, fun w => .vbfi (decV2I w)⟩,
  ⟨0x09C, 18, fun w => .vadds (decV3 w)⟩,
  ⟨0x09D, 18, fun w => .vsubs (decV3 w)⟩,
  ⟨0x09E, 18, fun w => .vdot4 (decV3 w)⟩,
  ⟨0x09F, 18, fun w => .vpermb (decV3 w)⟩,
  ⟨0x0A0, 9, fun w => .vtag (decV2I w)⟩,
  ⟨0x0A1, 18, fun w => let f := decV3 w; if f.sub == 1 then .vtagrSet f else .vtagrRead f⟩]

/-- Class 0x3. -/
def opsClass3a : List OpRow := [
  ⟨0x0C0, 18, fun w => .fadd (decV3 w)⟩,
  ⟨0x0C1, 18, fun w => .fsub (decV3 w)⟩,
  ⟨0x0C2, 18, fun w => .fmul (decV3 w)⟩,
  ⟨0x0C3, 18, fun w => .ffma (decV3 w)⟩,
  ⟨0x0C4, 18, fun w => .ffms (decV3 w)⟩,
  ⟨0x0C5, 18, fun w => .fnma (decV3 w)⟩,
  ⟨0x0C6, 18, fun w => .fmin (decV3 w)⟩,
  ⟨0x0C7, 18, fun w => .fmax (decV3 w)⟩,
  ⟨0x0C8, 18, fun w => .fabs (decV3 w)⟩,
  ⟨0x0C9, 18, fun w => .fneg (decV3 w)⟩,
  ⟨0x0CA, 18, fun w => .fcmp (decV3 w)⟩,
  ⟨0x0CB, 18, fun w => .fclass (decV3 w)⟩,
  ⟨0x0CC, 18, fun w => .frnd (decV3 w)⟩,
  ⟨0x0CD, 18, fun w => .fdiv (decV3 w)⟩,
  ⟨0x0CE, 18, fun w => .fsqrt (decV3 w)⟩,
  ⟨0x0CF, 18, fun w => .frcp (decV3 w)⟩,
  ⟨0x0D0, 18, fun w => .frsq (decV3 w)⟩,
  ⟨0x0D1, 18, fun w => .fexp2 (decV3 w)⟩]

/-- Class 0x3. -/
def opsClass3b : List OpRow := [
  ⟨0x0D2, 18, fun w => .flog2 (decV3 w)⟩,
  ⟨0x0D3, 18, fun w => .fsin (decV3 w)⟩,
  ⟨0x0D4, 18, fun w => .fcos (decV3 w)⟩,
  ⟨0x0D5, 18, fun w => .ftanh (decV3 w)⟩,
  ⟨0x0D6, 18, fun w => .fsigm (decV3 w)⟩,
  ⟨0x0D7, 18, fun w => .fdot2 (decV3 w)⟩]

/-- Class 0x4. -/
def opsClass4 : List OpRow := [
  ⟨0x100, 18, fun w => .cvt (decV3 w)⟩,
  ⟨0x101, 18, fun w => .cvti (decV3 w)⟩,
  ⟨0x102, 18, fun w => .cvtf (decV3 w)⟩,
  ⟨0x103, 18, fun w => .lmul (decV3 w)⟩,
  ⟨0x104, 18, fun w => .ldiv (decV3 w)⟩,
  ⟨0x105, 18, fun w => .lsqr (decV3 w)⟩,
  ⟨0x106, 18, fun w => .lsqrt (decV3 w)⟩,
  ⟨0x107, 18, fun w => .lscale (decV3 w)⟩,
  ⟨0x108, 18, fun w => .lmaxs (decV3 w)⟩,
  ⟨0x109, 18, fun w => .pack (decV3 w)⟩,
  ⟨0x10A, 18, fun w => .unpack (decV3 w)⟩,
  ⟨0x10B, 18, fun w => .lcmp (decV3 w)⟩]

/-- Class 0x5. -/
def opsClass5 : List OpRow := [
  ⟨0x140, 18, fun w => .shfl (decV3 w)⟩,
  ⟨0x141, 18, fun w => .vote (decV3 w)⟩,
  ⟨0x142, 18, fun w => .vred (decV3 w)⟩,
  ⟨0x143, 18, fun w => .vscan (decV3 w)⟩,
  ⟨0x144, 18, fun w => .vrdl (decV3 w)⟩,
  ⟨0x145, 18, fun w => .vwrl (decV3 w)⟩,
  ⟨0x146, 18, fun w => .pcount (decV3 w)⟩,
  ⟨0x147, 18, fun w => .pmov (decV3 w)⟩,
  ⟨0x148, 18, fun w => .pfroms (decV3 w)⟩,
  ⟨0x149, 18, fun w => .ptos (decV3 w)⟩,
  ⟨0x14A, 18, fun w => .dmask (decV3 w)⟩,
  ⟨0x14B, 18, fun w => .vcmx (decV3 w)⟩,
  ⟨0x14C, 18, fun w => .vmatch (decV3 w)⟩]

/-- Class 0x6. -/
def opsClass6 : List OpRow := [
  ⟨0x180, 2, fun w => .sld (decFM w)⟩,
  ⟨0x181, 2, fun w => .sst (decFM w)⟩,
  ⟨0x182, 2, fun w => .vld (decFM w)⟩,
  ⟨0x183, 2, fun w => .vst (decFM w)⟩,
  ⟨0x184, 2, fun w => .vgld (decFM w)⟩,
  ⟨0x185, 2, fun w => .vsct (decFM w)⟩,
  ⟨0x186, 2, fun w => .lld (decFM w)⟩,
  ⟨0x187, 2, fun w => .lst (decFM w)⟩,
  ⟨0x188, 2, fun w => .wld (decFM w)⟩,
  ⟨0x189, 2, fun w => .tld (decFM w)⟩,
  ⟨0x18A, 2, fun w => .tst (decFM w)⟩,
  ⟨0x18B, 2, fun w => .spush (decFM w)⟩,
  ⟨0x18C, 2, fun w => .spop (decFM w)⟩,
  ⟨0x18D, 2, fun w => .vpush (decFM w)⟩,
  ⟨0x18E, 2, fun w => .vpop (decFM w)⟩]

/-- Class 0x7. -/
def opsClass7 : List OpRow := [
  ⟨0x1C0, 4, fun w => .satom (decFA w)⟩,
  ⟨0x1C1, 4, fun w => .scas (decFA w)⟩,
  ⟨0x1C2, 4, fun w => .vatom (decFA w)⟩,
  ⟨0x1C3, 4, fun w => .vcas (decFA w)⟩,
  ⟨0x1C4, 4, fun w => .fatom (decFA w)⟩,
  ⟨0x1C5, 4, fun w => .latom (decFA w)⟩,
  ⟨0x1C6, 4, fun w => .waita (decFA w)⟩,
  ⟨0x1C7, 4, fun w => .arrw (decFA w)⟩,
  ⟨0x1C8, 4, fun w => .tkreq (decFA w)⟩,
  ⟨0x1C9, 4, fun w => .tkwait (decFA w)⟩,
  ⟨0x1CA, 4, fun w => .tkserve (decFA w)⟩]

/-- Class 0x8. -/
def opsClass8 : List OpRow := [
  ⟨0x200, 22, fun w => .fence (decFX w)⟩,
  ⟨0x201, 22, fun w => .waitc (decFX w)⟩,
  ⟨0x202, 22, fun w => .drainst (decFX w)⟩,
  ⟨0x203, 2, fun w => .cwb (decFM w)⟩,
  ⟨0x204, 2, fun w => .cinv (decFM w)⟩,
  ⟨0x205, 2, fun w => .cwbi (decFM w)⟩,
  ⟨0x206, 2, fun w => .pref (decFM w)⟩,
  ⟨0x207, 22, fun w => .wrsync (decFX w)⟩,
  ⟨0x208, 22, fun w => .waitb (decFX w)⟩]

/-- Class 0x9. -/
def opsClass9 : List OpRow := [
  ⟨0x240, 4, fun w => .cpy (decFA w)⟩,
  ⟨0x241, 4, fun w => .cpy2d (decFA w)⟩,
  ⟨0x242, 4, fun w => .cpysp (decFA w)⟩,
  ⟨0x243, 4, fun w => .csrwk (decFA w)⟩,
  ⟨0x244, 4, fun w => .xfer (decFA w)⟩,
  ⟨0x245, 4, fun w => .xget (decFA w)⟩,
  ⟨0x246, 4, fun w => .poolfill (decFA w)⟩,
  ⟨0x247, 4, fun w => .poolcopy (decFA w)⟩,
  ⟨0x248, 4, fun w => .poolcmp (decFA w)⟩,
  ⟨0x249, 4, fun w => .poolred (decFA w)⟩,
  ⟨0x24A, 4, fun w => .mpost (decFA w)⟩]

/-- Class 0xA. -/
def opsClassA : List OpRow := [
  ⟨0x280, 17, fun w => .mtake (decFMX w)⟩,
  ⟨0x281, 17, fun w => .mdone (decFMX w)⟩,
  ⟨0x282, 17, fun w => .mopa (decFMX w)⟩,
  ⟨0x283, 17, fun w => .mopb (decFMX w)⟩,
  ⟨0x284, 17, fun w => .mzero (decFMX w)⟩,
  ⟨0x285, 17, fun w => .mma (decFMX w)⟩,
  ⟨0x286, 17, fun w => .mmag (decFMX w)⟩,
  ⟨0x287, 17, fun w => .mldc (decFMX w)⟩,
  ⟨0x288, 17, fun w => .mstf (decFMX w)⟩,
  ⟨0x289, 17, fun w => .mstl (decFMX w)⟩,
  ⟨0x28A, 17, fun w => let f := decFMX w; if f.sub == 1 then .mprogSet f else if f.sub == 2 then .mprogClr f else .mprogRead f⟩,
  ⟨0x28B, 17, fun w => let f := decFMX w; if f.sub == 1 then .mtagtSet f else .mtagtRead f⟩]

/-- Class 0xC. -/
def opsClassC : List OpRow := [
  ⟨0x300, 22, fun w => .trap (decFX w)⟩,
  ⟨0x301, 22, fun w => .brk (decFX w)⟩,
  ⟨0x302, 22, fun w => .rft (decFX w)⟩,
  ⟨0x303, 22, fun w => .srrp (decFX w)⟩,
  ⟨0x304, 22, fun w => .srwp (decFX w)⟩,
  ⟨0x305, 22, fun w => .wgend (decFX w)⟩,
  ⟨0x306, 22, fun w => .gangend (decFX w)⟩,
  ⟨0x307, 22, fun w => .swapb (decFX w)⟩,
  ⟨0x308, 22, fun w => .purgev (decFX w)⟩,
  ⟨0x309, 22, fun w => .xlatinv (decFX w)⟩,
  ⟨0x30A, 22, fun w => .sfqpop (decFX w)⟩,
  ⟨0x30B, 22, fun w => .siderd (decFX w)⟩,
  ⟨0x30C, 22, fun w => let f := decFX w; if f.sub == 1 then .haltcLift f else if f.sub == 2 then .haltcRetire f else .haltcHalt f⟩,
  ⟨0x30D, 22, fun w => .evpost (decFX w)⟩]

/-- The 208 function codes that do work (R56). -/
def opTable : List OpRow :=
  opsClass0a ++ opsClass0b ++ opsClass1a ++ opsClass1b ++ opsClass2a ++ opsClass2b ++ opsClass3a ++ opsClass3b ++
    opsClass4 ++ opsClass5 ++ opsClass6 ++ opsClass7 ++ opsClass8 ++ opsClass9 ++ opsClassA ++ opsClassC

/-- CLASS of a word. -/
def classOf (w : BitVec 96) : BitVec 4 := w.extractLsb' 92 4

/-- The row of a function code, if the map lists it. -/
def findRow (code : Nat) : List OpRow → Option OpRow
  | [] => none
  | r :: rs => if r.code = code then some r else findRow code rs

/-- A row of the map applied to a word: the reserved low bits of the format, then the operands. -/
def rowDecode (r : OpRow) (w : BitVec 96) : Except Reject Instr :=
  let i := r.make w
  if w.toNat % 2 ^ r.low ≠ 0 then .error .reservedBits
  else match reject? i with
    | some e => .error e
    | none => .ok i

/-- The instruction that a word is, or the lowest of the reasons 0 to 3 of R58. -/
def decode (w : BitVec 96) : Except Reject Instr :=
  if w = 0 then .ok .nop
  else if classOf w = 0xB ∨ classOf w = 0xD ∨ classOf w = 0xE ∨ classOf w = 0xF then .error .reservedClass
  else if w.extractLsb' 86 10 = 0 then .error .reservedBits
  else match findRow (w.extractLsb' 86 10).toNat opTable with
    | none => .error .reservedFunction
    | some r => rowDecode r w

/-- The instruction read from a word numbered as the opcode table numbers its bits. A word is 96 bits. -/
def decodeTableWord (nbits w : Nat) : Option Instr :=
  if nbits > 96 then none
  else match decode (BitVec.ofNat 96 (w % 2 ^ nbits)) with
    | .ok i => some i
    | .error _ => none

/-! ### Fetch lines (R28 to R31) -/

/-- The word in slot `i` of a line of 512 bits (R28). -/
def slotWord (line : BitVec 512) (i : Nat) : BitVec 96 := line.extractLsb' (96 * i) 96
/-- The line word (R28). -/
def lineWord (line : BitVec 512) : BitVec 32 := line.extractLsb' 480 32
/-- TGT marks slot `i` (R29). -/
def lineTgt (line : BitVec 512) (i : Nat) : Bool := i < 5 && line.getLsbD (507 + i)
/-- The pairs that PAIR names, by their first slot (R29). -/
def linePairs (line : BitVec 512) : List Nat :=
  match (line.extractLsb' 504 3).toNat with
  | 0 => []
  | 1 => [0]
  | 2 => [1]
  | 3 => [2]
  | 4 => [3]
  | 5 => [0, 2]
  | 6 => [0, 3]
  | _ => [1, 3]
/-- Bit `j` of PAR that the slot area gives (R29). -/
def parityBit (line : BitVec 512) (j : Nat) : Bool :=
  (List.range 30).foldl (fun acc k => acc ^^ line.getLsbD (30 * j + k)) false
/-- All 16 parity bits check (R30). -/
def lineParityOk (line : BitVec 512) : Bool :=
  (List.range 16).all (fun j => parityBit line j == line.getLsbD (480 + j))
/-- The line is malformed (R31). -/
def lineMalformed (line : BitVec 512) : Bool :=
  line.extractLsb' 496 8 != 0 || (linePairs line).any (fun i => lineTgt line (i + 1))
/-- Slot `i` and every later slot hold NOP, so they are skipped (R32). DESIGN CHOICE, log entry 66: the spec does not say
what becomes of a line without any other slot; all of it is skipped. -/
def restNop (line : BitVec 512) (i : Nat) : Bool := (List.range 5).all (fun j => j < i || slotWord line j == 0)
/-- A line of five words with a legal-target mask and a pairing code, and its parity (R29). -/
def mkLine (ws : List (BitVec 96)) (tgt pair : Nat) : BitVec 512 :=
  let area := (List.range 5).foldl (fun acc i => acc + (ws.getD i 0).toNat * 2 ^ (96 * i)) 0
  let bare := BitVec.ofNat 512 area
  let par := (List.range 16).foldl (fun acc j => if parityBit bare j then acc + 2 ^ j else acc) 0
  BitVec.ofNat 512 (area + (tgt % 32 * 2 ^ 27 + pair % 8 * 2 ^ 24 + par) * 2 ^ 480)

/-! ### The encoder -/

/-- The word of an instruction (R36, R47 to R56). Events have none. -/
def encode : Instr → Option (BitVec 96)
  | .nop => some 0
  | .smov f => some (encS3 0x001 f)
  | .smovi f => some (encSI 0x002 f)
  | .smoviHi f => some (encSI 0x002 f)
  | .sadd f => some (encS3 0x003 f)
  | .saddi f => some (encSI 0x004 f)
  | .ssub f => some (encS3 0x005 f)
  | .smul f => some (encS3 0x006 f)
  | .smulh f => some (encS3 0x007 f)
  | .smulhn f => some (encS3 0x008 f)
  | .sdiv f => some (encS3 0x009 f)
  | .sdivn f => some (encS3 0x00A f)
  | .srem f => some (encS3 0x00B f)
  | .sand f => some (encS3 0x00C f)
  | .sor f => some (encS3 0x00D f)
  | .sxor f => some (encS3 0x00E f)
  | .sandn f => some (encS3 0x00F f)
  | .sshl f => some (encS3 0x010 f)
  | .sshr f => some (encS3 0x011 f)
  | .ssra f => some (encS3 0x012 f)
  | .srot f => some (encS3 0x013 f)
  | .smin f => some (encS3 0x014 f)
  | .smax f => some (encS3 0x015 f)
  | .sminn f => some (encS3 0x016 f)
  | .smaxn f => some (encS3 0x017 f)
  | .scmp f => some (encS3 0x018 f)
  | .ssel f => some (encS3 0x019 f)
  | .sclz f => some (encS3 0x01A f)
  | .spopc f => some (encS3 0x01B f)
  | .sbfx f => some (encSI 0x01C f)
  | .sbfi f => some (encSI 0x01D f)
  | .slea f => some (encS3 0x01E f)
  | .swid f => some (encS3 0x01F f)
  | .srr f => some (encSI 0x020 f)
  | .srw f => some (encSI 0x021 f)
  | .sbool f => some (encS3 0x022 f)
  | .br f => some (encFB 0x040 f)
  | .brc f => some (encFB 0x041 f)
  | .bri f => some (encFB 0x042 f)
  | .call f => some (encFB 0x043 f)
  | .ret f => some (encFB 0x044 f)
  | .loop f => some (encFB 0x045 f)
  | .exit f => some (encFX 0x046 f)
  | .msetEm f => some (encFX 0x047 f)
  | .msetParked f => some (encFX 0x047 f)
  | .park f => some (encFB 0x048 f)
  | .join f => some (encFX 0x049 f)
  | .lexit f => some (encFX 0x04A f)
  | .brany f => some (encFB 0x04B f)
  | .brall f => some (encFB 0x04C f)
  | .bar f => some (encFX 0x04D f)
  | .barg f => some (encFX 0x04E f)
  | .enq f => some (encFX 0x04F f)
  | .yield f => some (encFX 0x050 f)
  | .napc f => some (encFX 0x051 f)
  | .pfh f => some (encFX 0x052 f)
  | .vmov f => some (encV3 0x080 f)
  | .vmovi f => some (encV2I 0x081 f)
  | .vbcast f => some (encV3 0x082 f)
  | .vlane f => some (encV3 0x083 f)
  | .vadd f => some (encV3 0x084 f)
  | .vsub f => some (encV3 0x085 f)
  | .vmul f => some (encV3 0x086 f)
  | .vmulh f => some (encV3 0x087 f)
  | .vmulhn f => some (encV3 0x088 f)
  | .vmad f => some (encV3 0x089 f)
  | .vand f => some (encV3 0x08A f)
  | .vor f => some (encV3 0x08B f)
  | .vxor f => some (encV3 0x08C f)
  | .vandn f => some (encV3 0x08D f)
  | .vshl f => some (encV3 0x08E f)
  | .vshr f => some (encV3 0x08F f)
  | .vsra f => some (encV3 0x090 f)
  | .vmin f => some (encV3 0x091 f)
  | .vmax f => some (encV3 0x092 f)
  | .vminn f => some (encV3 0x093 f)
  | .vmaxn f => some (encV3 0x094 f)
  | .vabs f => some (encV3 0x095 f)
  | .vcmp f => some (encV3 0x096 f)
  | .vsel f => some (encV3 0x097 f)
  | .vclz f => some (encV3 0x098 f)
  | .vpopc f => some (encV3 0x099 f)
  | .vbfx f => some (encV2I 0x09A f)
  | .vbfi f => some (encV2I 0x09B f)
  | .vadds f => some (encV3 0x09C f)
  | .vsubs f => some (encV3 0x09D f)
  | .vdot4 f => some (encV3 0x09E f)
  | .vpermb f => some (encV3 0x09F f)
  | .vtag f => some (encV2I 0x0A0 f)
  | .vtagrRead f => some (encV3 0x0A1 f)
  | .vtagrSet f => some (encV3 0x0A1 f)
  | .fadd f => some (encV3 0x0C0 f)
  | .fsub f => some (encV3 0x0C1 f)
  | .fmul f => some (encV3 0x0C2 f)
  | .ffma f => some (encV3 0x0C3 f)
  | .ffms f => some (encV3 0x0C4 f)
  | .fnma f => some (encV3 0x0C5 f)
  | .fmin f => some (encV3 0x0C6 f)
  | .fmax f => some (encV3 0x0C7 f)
  | .fabs f => some (encV3 0x0C8 f)
  | .fneg f => some (encV3 0x0C9 f)
  | .fcmp f => some (encV3 0x0CA f)
  | .fclass f => some (encV3 0x0CB f)
  | .frnd f => some (encV3 0x0CC f)
  | .fdiv f => some (encV3 0x0CD f)
  | .fsqrt f => some (encV3 0x0CE f)
  | .frcp f => some (encV3 0x0CF f)
  | .frsq f => some (encV3 0x0D0 f)
  | .fexp2 f => some (encV3 0x0D1 f)
  | .flog2 f => some (encV3 0x0D2 f)
  | .fsin f => some (encV3 0x0D3 f)
  | .fcos f => some (encV3 0x0D4 f)
  | .ftanh f => some (encV3 0x0D5 f)
  | .fsigm f => some (encV3 0x0D6 f)
  | .fdot2 f => some (encV3 0x0D7 f)
  | .cvt f => some (encV3 0x100 f)
  | .cvti f => some (encV3 0x101 f)
  | .cvtf f => some (encV3 0x102 f)
  | .lmul f => some (encV3 0x103 f)
  | .ldiv f => some (encV3 0x104 f)
  | .lsqr f => some (encV3 0x105 f)
  | .lsqrt f => some (encV3 0x106 f)
  | .lscale f => some (encV3 0x107 f)
  | .lmaxs f => some (encV3 0x108 f)
  | .pack f => some (encV3 0x109 f)
  | .unpack f => some (encV3 0x10A f)
  | .lcmp f => some (encV3 0x10B f)
  | .shfl f => some (encV3 0x140 f)
  | .vote f => some (encV3 0x141 f)
  | .vred f => some (encV3 0x142 f)
  | .vscan f => some (encV3 0x143 f)
  | .vrdl f => some (encV3 0x144 f)
  | .vwrl f => some (encV3 0x145 f)
  | .pcount f => some (encV3 0x146 f)
  | .pmov f => some (encV3 0x147 f)
  | .pfroms f => some (encV3 0x148 f)
  | .ptos f => some (encV3 0x149 f)
  | .dmask f => some (encV3 0x14A f)
  | .vcmx f => some (encV3 0x14B f)
  | .vmatch f => some (encV3 0x14C f)
  | .sld f => some (encFM 0x180 f)
  | .sst f => some (encFM 0x181 f)
  | .vld f => some (encFM 0x182 f)
  | .vst f => some (encFM 0x183 f)
  | .vgld f => some (encFM 0x184 f)
  | .vsct f => some (encFM 0x185 f)
  | .lld f => some (encFM 0x186 f)
  | .lst f => some (encFM 0x187 f)
  | .wld f => some (encFM 0x188 f)
  | .tld f => some (encFM 0x189 f)
  | .tst f => some (encFM 0x18A f)
  | .spush f => some (encFM 0x18B f)
  | .spop f => some (encFM 0x18C f)
  | .vpush f => some (encFM 0x18D f)
  | .vpop f => some (encFM 0x18E f)
  | .satom f => some (encFA 0x1C0 f)
  | .scas f => some (encFA 0x1C1 f)
  | .vatom f => some (encFA 0x1C2 f)
  | .vcas f => some (encFA 0x1C3 f)
  | .fatom f => some (encFA 0x1C4 f)
  | .latom f => some (encFA 0x1C5 f)
  | .waita f => some (encFA 0x1C6 f)
  | .arrw f => some (encFA 0x1C7 f)
  | .tkreq f => some (encFA 0x1C8 f)
  | .tkwait f => some (encFA 0x1C9 f)
  | .tkserve f => some (encFA 0x1CA f)
  | .fence f => some (encFX 0x200 f)
  | .waitc f => some (encFX 0x201 f)
  | .drainst f => some (encFX 0x202 f)
  | .cwb f => some (encFM 0x203 f)
  | .cinv f => some (encFM 0x204 f)
  | .cwbi f => some (encFM 0x205 f)
  | .pref f => some (encFM 0x206 f)
  | .wrsync f => some (encFX 0x207 f)
  | .waitb f => some (encFX 0x208 f)
  | .cpy f => some (encFA 0x240 f)
  | .cpy2d f => some (encFA 0x241 f)
  | .cpysp f => some (encFA 0x242 f)
  | .csrwk f => some (encFA 0x243 f)
  | .xfer f => some (encFA 0x244 f)
  | .xget f => some (encFA 0x245 f)
  | .poolfill f => some (encFA 0x246 f)
  | .poolcopy f => some (encFA 0x247 f)
  | .poolcmp f => some (encFA 0x248 f)
  | .poolred f => some (encFA 0x249 f)
  | .mpost f => some (encFA 0x24A f)
  | .mtake f => some (encFMX 0x280 f)
  | .mdone f => some (encFMX 0x281 f)
  | .mopa f => some (encFMX 0x282 f)
  | .mopb f => some (encFMX 0x283 f)
  | .mzero f => some (encFMX 0x284 f)
  | .mma f => some (encFMX 0x285 f)
  | .mmag f => some (encFMX 0x286 f)
  | .mldc f => some (encFMX 0x287 f)
  | .mstf f => some (encFMX 0x288 f)
  | .mstl f => some (encFMX 0x289 f)
  | .mprogRead f => some (encFMX 0x28A f)
  | .mprogSet f => some (encFMX 0x28A f)
  | .mprogClr f => some (encFMX 0x28A f)
  | .mtagtRead f => some (encFMX 0x28B f)
  | .mtagtSet f => some (encFMX 0x28B f)
  | .trap f => some (encFX 0x300 f)
  | .brk f => some (encFX 0x301 f)
  | .rft f => some (encFX 0x302 f)
  | .srrp f => some (encFX 0x303 f)
  | .srwp f => some (encFX 0x304 f)
  | .wgend f => some (encFX 0x305 f)
  | .gangend f => some (encFX 0x306 f)
  | .swapb f => some (encFX 0x307 f)
  | .purgev f => some (encFX 0x308 f)
  | .xlatinv f => some (encFX 0x309 f)
  | .sfqpop f => some (encFX 0x30A f)
  | .siderd f => some (encFX 0x30B f)
  | .haltcHalt f => some (encFX 0x30C f)
  | .haltcLift f => some (encFX 0x30C f)
  | .haltcRetire f => some (encFX 0x30C f)
  | .evpost f => some (encFX 0x30D f)
  | .issuePick .. | .pendingStoreFaultTrap .. | .returningAccessCommit .. | .returningAccessFault ..
  | .storeFaultReport .. | .stackSpillFill .. | .rd .. | .own .. | .push .. | .inv .. | .eviction ..
  | .remoteAtomic .. | .hostRdmaWrite .. | .hostRdmaRead .. | .remoteInvalidation .. | .fabricTimeout ..
  | .linkFailure .. | .peerRejoin .. | .parityDelta .. | .parityDeltaAck .. | .uncorrectableError ..
  | .parityWordRebuild .. | .groupDegraded .. | .parityRowRebuild .. | .parityRebuildComplete ..
  | .parityMemberReplace .. | .parityRowRestore .. | .dieLoss .. | .dieDirectoryRebuild ..
  | .dieRebuildComplete .. | .commandComplete .. | .commandFailure .. | .commandFailureTrap ..
  | .bitmapChunkSet .. | .ringPublish .. | .xferPacketArrival .. | .xgetReadRequest .. | .packetResend ..
  | .extentRelease .. | .poolDeviceCompletion .. | .mpostAdmit .. | .entryAgeRaise .. | .bctlResume ..
  | .bctlSkip .. | .bctlEnd .. | .ifetchFill .. | .napExpiry .. | .waitaRecheck .. | .arrwWake ..
  | .refreshWindowStart .. | .refreshWindowEnd .. | .kickSlotWrite .. | .qidxProdWrite .. | .kickRun ..
  | .kickRegister .. | .kickUnregister .. | .nodeStart .. | .launchComplete .. | .gangPlacement ..
  | .holdbackReserve .. | .sliceExpiry .. | .gangSave .. | .bankSwapComplete .. | .spillComplete ..
  | .saveComplete .. | .gangResume .. | .eventArbitration .. | .overflowMarker .. | .qcfgWrite ..
  | .registerWrite .. | .coldStart .. | .warmStart .. | .readyUp .. | .startTimeout .. | .wdogKick ..
  | .watchdogExpiry .. | .fwctlUpdate .. | .commitGo .. | .trialExpiry .. | .spdmGetVersion ..
  | .spdmGetCapabilities .. | .spdmNegotiateAlgorithms .. | .spdmGetDigests .. | .spdmGetCertificate ..
  | .spdmChallenge .. | .spdmGetMeasurements .. | .tkwaitRecheck .. | .extentAdd .. | .powerLoss .. => none

end Sys2Proof
end

