-- ==== Sys2Proof/Config.lean ====
section
/-!
DEFINITION. What an implementation fixes and the spec leaves open: the free values. Each is a constant without a body,
applied to what it depends on, so no proof can see what it is.
-/

namespace Sys2Proof.Config

/-- Free value (log entry 15): the result code that the approximate special function `fn` (R115) gives for the element
`x` of format code `fmt`. The model uses it where it lies within the bound of R115. -/
opaque specialResult : (fn fmt x : Nat) → Nat
/-- Free value (log entry 6): an open choice, fresh for each value of the counter of State. -/
opaque freeChoice : Nat → Nat
/-- Free value (log entry 16): the SHA-256 digest of a byte string (R325, R326). -/
opaque sha256 : List Byte → BitVec 256
/-- Free value (log entry 16): the SHA-384 digest of a byte string (R327). -/
opaque sha384 : List Byte → BitVec 384
/-- Free value (log entry 16): whether an SLH-DSA-SHA2-128s signature verifies under a public key (R325). -/
opaque slhVerify : (key sig msg : List Byte) → Bool
/-- Free value (log entry 16): the ECDSA P-384 signature with SHA-384 by the device identity key (R327). -/
opaque ecdsaSign : List Byte → List Byte
/-- Free value (log entry 16): the certificate chain of the device identity key in slot 0 (R327). -/
opaque certificateChain : List Byte
/-- Free value (log entry 16): Crown's immutable ROM and the fuse values, which R326 measures. -/
opaque crownRom : List Byte
opaque fuseBytes : List Byte
/-- Free value (log entry 16): the device's SPDM capability flags and opaque response fields (R327). -/
opaque spdmCapabilities : Word
/-- Free value (log entry 16): the device's SPDM CTExponent (0), DataTransferSize (1) and MaxSPDMmsgSize (2) (R327). -/
opaque spdmSize : Nat → Nat
/-- Free value (log entry 17): the bytes of a requester's GET_CAPABILITIES after its version and code (R327). -/
opaque spdmRequest : Nat → List Byte
/-- Free value (log entry 19): where in the area of HBM that firmware reserves the context record of a workgroup or a Bowler
stream, by its number, lies (R317). -/
opaque saveArea : Nat → Nat

/-- Free value (log entry 6): the LLC slice, 0 to 127, that homes a line frame of local HBM (R16). -/
opaque homeSlice : (line : Nat) → Nat

end Sys2Proof.Config
end

