-- ==== Sys2Proof/Machine/State.lean ====
section
/-!
DEFINITION. The state of the package as plain data, the reasons a step can stop, and the state after reset.
Every register has one home here. Where several registers share storage with another record, the record is the home.
-/

namespace Sys2Proof.Machine

/-! ### Execution streams: warps and Bowler streams -/

/-- What a stream runs on (R57). -/
inductive Role where
  | warp | bowler
  deriving DecidableEq, Repr

/-- A vector register: 32 lanes, the 12-bit tag of R88 and the full/empty bit of R40. -/
structure VReg where
  lanes : Vector Word 32
  tag : BitVec 12
  full : Bool
  deriving DecidableEq, Repr

/-- The registers of a stream (R12, R38). P0 and S0 are stored but never read (R10). -/
structure Regs where
  s : Vector Dword 128
  sfull : Vector Bool 128
  v : Vector VReg 1024
  p : Vector Word 16
  b : Vector Bool 8
  /-- Scalar registers whose contents failed correction (R340). -/
  sbad : List Nat
  /-- Scalar registers that hold the status of a matrix request (R163). -/
  acq : List Nat := []
  deriving DecidableEq, Repr

/-- A pending join (R294). -/
structure Join where
  addr : Dword
  mask : Word
  deriving DecidableEq, Repr

/-- The waiting instruction, the clock at which it started and that of its last check (R214, R227), and the value that a waiting
publish wrote (R241). -/
structure Waiting where
  i : Instr
  start : Nat
  seen : Nat
  v : Dword := 0
  deriving DecidableEq, Repr

/-- Where a stream runs and whose it is (R18, R255). `regs` is the grant of vector registers (R39). -/
structure Place where
  core : Nat
  slot : Nat
  group : Nat
  launch : Nat
  widx : Nat
  regs : Nat
  wid0 : Dword
  region : Option Nat
  deriving DecidableEq, Repr

/-- Sequencing state. `arriving` marks a taken transfer whose target is still to be checked (R34). -/
structure Control where
  pc : Dword
  em : Word
  joins : List Join
  arriving : Bool
  priv : Bool
  hold : Bool
  napEnd : Option Nat
  /-- The line whose miss SLIPC has counted (R287). -/
  missed : Option Dword
  replay : Option Word
  wait : Option Waiting
  arrivedBar : Bool
  arrivedGang : Bool
  issued : Nat
  deriving DecidableEq, Repr

/-- System registers held by a stream: FLG (R91), SLIM and SPTR (R177), WSWIN (R201), PPOLL (R215). -/
structure SysRegs where
  flg : Dword
  slim : Dword
  sptr : Dword
  wswin : Dword
  ppoll : Dword
  deriving DecidableEq, Repr

/-- A side-buffer entry (R335), field by field. -/
structure Side where
  vaddr : Dword
  lanes : Word
  cls : BitVec 4
  pair : Bool
  reason : BitVec 8
  kind : BitVec 4
  fn : BitVec 6
  icls : BitVec 4
  lkind : BitVec 128
  pc : Dword
  detail : Dword
  deriving DecidableEq, Repr

/-- What a lead was before it entered its handler, and when: a trap of a lower wave slot in the same core clock takes the
lead from it (R330, R333). -/
structure Undo where
  tpc : Dword
  tstat : Dword
  pc : Dword
  priv : Bool
  replay : Option Word
  clock : Nat
  issued : Nat
  deriving DecidableEq, Repr

/-- The trap-state registers (R332) and the warp's side-buffer entry. -/
structure TrapRegs where
  tpc : Dword
  tstat : Dword
  tskid : Dword
  tsfov : Dword
  tscr : Vector Dword 4
  side : Side
  undo : Option Undo
  deriving DecidableEq, Repr

/-- One piece of a returning access: which lane and destination register it fills, its address and its bytes. -/
structure Elem where
  lane : Nat
  reg : Nat
  ea : Dword
  bytes : Nat
  deriving DecidableEq, Repr

/-- A piece whose value is fixed. -/
structure Got where
  lane : Nat
  reg : Nat
  val : Dword
  bad : Bool
  deriving DecidableEq, Repr

/-- A refused lane with its fault kind (R196) and virtual address. -/
structure LaneFault where
  lane : Nat
  kind : Nat
  va : Dword
  deriving DecidableEq, Repr

/-- What a trap reports (R330, R335): class, reason, fault kind, lowest address, faulted lanes with their kinds, detail,
and whether the second slot of a pair raised it. `since` is, for a fault found after its instruction issued, what each sibling
had issued then (R333). -/
structure Cause where
  cls : Nat
  reason : Nat := 0
  kind : Nat := 0
  va : Dword := 0
  lanes : List LaneFault := []
  detail : Dword := 0
  second : Bool := false
  since : List (Nat × Nat) := []
  deriving DecidableEq, Repr

/-- A returning access that has issued and not committed (R197). `sptr` is SPTR before it, `counted` its entry in the ga
counter, `sibs` the instructions that each sibling had issued then (R333), and `nf` the lanes that faulted under nf (R205). -/
structure Ret where
  i : Instr
  pc : Dword
  mask : Word
  elems : List Elem
  got : List Got
  confirmed : Bool
  trap : Option Cause
  sptr : Dword
  counted : Option Nat
  sibs : List (Nat × Nat) := []
  nf : Word := 0
  deriving DecidableEq, Repr

/-- One piece of a store: its lane, address and bytes. -/
structure StElem where
  lane : Nat
  ea : Dword
  data : List Byte
  deriving DecidableEq, Repr

/-- A store-like access that has retired and is neither performed nor reported (R200). `range` is the range of CWB and
CWBI, `acks` the parity deltas that a survivable store waits for (R194), and `pool` the pool words written that the device
has still to receive (R193). -/
structure Store where
  i : Instr
  pc : Dword
  elems : List StElem
  range : Option (Nat × Nat)
  scope : Scope
  priv : Bool
  stack : Bool
  counted : Option Nat
  issuedAt : Nat
  faults : List LaneFault
  acks : List DeltaId
  pool : List WKey
  deriving DecidableEq, Repr

/-- A store-fault record (R336). `kept` marks one that a save took out of the core's queue (R338). -/
structure SfRec where
  pc : Dword
  va : Dword
  lanes : Word
  kind : BitVec 4
  fn : BitVec 6
  icls : BitVec 4
  slot : BitVec 5
  issued : Word
  kept : Bool
  deriving DecidableEq, Repr

/-- An outstanding operation of a counter (R189): not yet reported, and complete or not. -/
structure OpRef where
  id : Nat
  done : Bool
  deriving DecidableEq, Repr

/-- A command failure that its warp has yet to take (R231). `op` is the transfer of the fb counter that must be reported
first. -/
structure HeldFail where
  reason : Nat
  kind : Nat
  fn : Nat
  va : Dword
  token : Nat
  op : Option Nat
  deriving DecidableEq, Repr

/-- Accesses and operations of a stream that have not ended. -/
structure Accesses where
  returning : List Ret
  stores : List Store
  sfrecs : List SfRec
  cp : List OpRef
  mx : List OpRef
  ga : List OpRef
  fb : List OpRef
  fails : List HeldFail
  deriving DecidableEq, Repr

/-- Scheduler state of a stream (R285) and its halting skid (R333). -/
structure Sched where
  unpicked : Nat
  lastPick : Option Nat
  created : Nat
  skid : Option Nat
  deriving DecidableEq, Repr

/-- A tile register (R14): element (i, j) at 64 i + j. -/
structure Tile where
  elems : Vector Word 4096
  tag : BitVec 12
  deriving DecidableEq, Repr

/-- An operand descriptor (R150). -/
structure Desc where
  addr : Dword
  stride : Dword
  k : Nat
  rows : Nat
  mf : Nat
  scale : BitVec 8
  deriving DecidableEq, Repr

/-- State of a Bowler stream beyond a warp's (R137, R168). `saved` marks a stream whose context is in memory (R317). -/
structure Bowler where
  eflg : Dword
  tiles : Vector Tile 8
  descA : Option Desc
  descB : Option Desc
  rp : Dword
  rstack : List Dword
  stopped : Bool
  saved : Bool
  /-- SCHK as AFLAGS gave it when the context started (R304). -/
  schk : Bool
  deriving DecidableEq, Repr

/-- An execution stream. For a Bowler stream `pl.core` is the first core of its cluster. -/
structure Hart where
  id : Nat
  role : Role
  live : Bool
  pl : Place
  r : Regs
  c : Control
  y : SysRegs
  t : TrapRegs
  m : Accesses
  sch : Sched
  bow : Bowler
  deriving DecidableEq, Repr

/-! ### Workgroups, gangs and launches -/

/-- A recorded reservation of a saved workgroup (R147, R322). -/
structure PostRec where
  payload : Dword
  pri : Nat
  tok : Nat
  hart : Nat
  opId : Nat
  deriving DecidableEq, Repr

/-- The life of a workgroup (R316 to R320). `saving` counts the context parts still to be written. -/
inductive Phase where
  | resident | saving | saved | ended
  deriving DecidableEq, Repr

/-- A workgroup: its place, its scratchpad and the registers that its warps share. -/
structure Group where
  launch : Nat
  gang : Nat
  wgnum : Nat
  core : Nat
  slot : Nat
  nwarps : Nat
  regs : Nat
  asid : BitVec 16
  seed : Bool
  pinned : Bool
  scratchSize : Nat
  scratch : List Host.Cell
  scratchBad : List Nat
  mctl : Dword
  hbase : Dword
  epw : Vector Dword 4
  epc : Vector Dword 4
  cring : Dword
  crcons : Dword
  bcount : Option Nat
  halt : Option Nat
  phase : Phase
  posts : List PostRec
  swapDone : Bool
  spilled : Bool
  /-- The clock at which its recorded posts reached the table again (R147). -/
  postsAt : Nat
  deriving DecidableEq, Repr

/-- A gang (R256, R264). -/
structure Gang where
  launch : Nat
  groups : List Nat
  coloc : Nat
  pinned : Bool
  saveAsked : Bool
  /-- Its stop waits for the end of the instruction that is issuing (R289, R319). -/
  stopping : Bool
  deriving DecidableEq, Repr

/-- A launch header (R257) with its code addresses relocated. -/
structure Header where
  wgEntry : Dword
  seedEntry : Dword
  bowlEntry : Dword
  widths : List Nat
  wgb : Nat
  gb : Nat
  coloc : Nat
  regs : Nat
  scratch : Nat
  seedScr : Nat
  stack : Nat
  pri : Nat
  pinned : Bool
  deriving DecidableEq, Repr

/-- An item of a pending list (R262, R263, R283). `born` is the clock at which it was accepted, or saved. -/
inductive Pending where
  | range (first n : Nat) (arg : Dword) (scope : Scope) (born : Nat)
  | saved (gang born : Nat)
  deriving DecidableEq, Repr

/-- A launch (R261). `since` is the clock at which its seed became pending. -/
structure Launch where
  queue : Nat
  replay : Nat
  node : Nat
  kseq : Word
  handle : Dword
  hdr : Header
  asid : BitVec 16
  param : Dword
  pri : Nat
  counter : Nat
  pending : List Pending
  since : Nat
  wswin : Dword
  /-- STKN, STKSZ and STKBASE as the node's start read them (R304). -/
  stkn : Nat
  stksz : Nat
  stkbase : Nat
  seedPlaced : Bool
  lostGroups : Nat
  complete : Bool
  deriving DecidableEq, Repr

/-! ### Clusters, cores and dies -/

/-- The state of a reservation entry (R140). -/
inductive EState where
  | free | posted | taken
  deriving DecidableEq, Repr

/-- A reservation-table entry (R140 to R144). -/
structure Entry where
  st : EState
  gen : Nat
  payload : Dword
  pri : Nat
  req : Nat
  tok : Nat
  hart : Nat
  group : Nat
  launch : Nat
  opId : Nat
  age : Nat
  raised : Nat
  /-- The clock of its admission (R142). -/
  since : Nat
  deriving DecidableEq, Repr

/-- A cluster's table, its device registers (R145, R166) and its Bowler's clock counter (R292). -/
structure Cluster where
  table : Vector Entry 16
  admitted : Nat
  mxcfg : Dword
  btr0 : Dword
  btr1 : Dword
  btr2 : Dword
  cclk : Nat
  deriving DecidableEq, Repr

/-- A core: SLIPC (R287), its clock counter (R292) with the schedulers that have had their issue opportunity in this clock
(R284), the count until which a swap holds it (R316), and the package clock at which its clock began, with the wave slot of the
post and of the enqueue accepted in it and what names them (R142, R263). -/
structure Core where
  slipc : Dword
  cclk : Nat
  turn : BitVec 2
  busyUntil : Nat
  began : Nat := 0
  post : Option (Nat × Nat) := none
  enq : Option (Nat × Nat × Nat) := none
  deriving DecidableEq, Repr

/-- A line of the die's instruction cache (R286). `user` is USER of its page, `held` the gangs that hold it (R302). -/
structure ILine where
  asid : BitVec 16
  addr : Dword
  data : BitVec 512
  user : Bool
  held : List Nat
  deriving DecidableEq, Repr

/-- An entry of the stack directory that named a failed die, still to be resolved (R351): `words` words from `pw` on, and
whether they are lost. -/
structure DeadSpan where
  pw : PWord
  words : Nat
  lost : Bool
  poison : Bool
  deriving DecidableEq, Repr

/-- A line that PFH asked for and whose fetch waits: its address space, its address, the core that asked, and the gang that holds
it (R302). -/
structure Prefetch where
  asid : BitVec 16
  addr : Dword
  core : Nat
  held : List Nat
  deriving DecidableEq, Repr

/-- A die: its instruction cache, soft-error counter (R30), refresh schedule (R178, R291) and loss (R350). `rebuild` holds
the clocks taken and the spans marked lost so far (R351), `spans` the entries still to be resolved, `ahead` the lines that PFH
still has to fetch (R302). -/
structure Die where
  failed : Bool
  rebuild : Option (Nat × Nat)
  spans : List DeadSpan
  icache : List ILine
  soft : Nat
  period : Nat
  window : Nat
  order : Nat
  bank : Nat
  nominal : Nat
  openUntil : Option Nat
  deferClocks : BitVec 16
  forced : BitVec 16
  ahead : List Prefetch := []
  deriving DecidableEq, Repr

/-! ### Memory and coherence -/

/-- The states of R180. -/
inductive CohSt where
  | i | s | e | m | o | w
  deriving DecidableEq, Repr

/-- What a node of the tree holds for one word (log entry 9). Only L1 and L2 copies carry data (R175): `val`, whether it
is poisoned, and its version; a stack directory keeps what a die last pushed to it (R352). `pf` is the newest version granted or pushed at the node (R170). -/
structure Copy where
  node : Node
  key : WKey
  st : CohSt
  val : Option Word
  bad : Bool
  ver : Nat
  pf : Nat
  deriving DecidableEq, Repr

/-- A party that used a synchronisation line (R185). -/
inductive Party where
  | core (pkg core : Nat)
  | cluster (pkg cluster : Nat)
  | host
  deriving DecidableEq, Repr

/-- The record of a synchronisation line at a node; level 6 is the home slice (R185). `key` names word 0 of the line. -/
structure SyncRec where
  node : Node
  key : WKey
  user : Party
  scope : Scope
  deriving DecidableEq, Repr

/-- A span that a node tracks (R179): `words` words from the one that `key` names on. -/
structure SpanRec where
  node : Node
  key : WKey
  words : Nat
  deriving DecidableEq, Repr

/-- The permission that a word held in an L1 or L2 carries (R311): the leaf that its translation granted, and the size of its
page. -/
structure Held where
  node : Node
  asid : Nat
  va : Nat
  leaf : Dword
  size : Nat
  deriving DecidableEq, Repr

/-- A translation cache entry of a stack (R311): the leaf and the page it maps. -/
structure Tlb where
  stack : Nat
  asid : BitVec 16
  glob : Bool
  base : Nat
  size : Nat
  leaf : Dword
  deriving DecidableEq, Repr

/-! ### Commands, fabric and pool -/

/-- A command accepted by Mitten, the fabric or a pool port (R228). `aop`, `ty`, `scope` are the instruction's. `moved` counts
the words that a copy has written or the packets that a transfer has sent, `bits` the chunks whose bitmap bits are set (R236),
`got` what a streamed POOLRED or an XGET has read, with its poison, `fin` COUNT and MARK once all its accesses are made, `acks`
the deltas that it waits for then (R194), `slot` the device's slot that holds its record (R251), and `refused` the failure that
a target has answered (R246). -/
structure Cmd where
  id : Nat
  fn : Nat
  aop : Nat
  ty : Nat
  scope : Scope
  hart : Nat
  group : Nat
  token : Nat
  cluster : Nat
  priv : Bool
  asid : BitVec 16
  a : Dword
  x : Dword
  y : Dword
  bm : Nat
  walk : List Byte
  moved : Nat
  bits : List Nat
  got : Option (List (Word × Bool))
  fin : Option (Nat × Bool)
  acks : List DeltaId
  slot : Option Nat
  refused : Option CmdFail
  deriving DecidableEq, Repr

/-- A CXL port's extent (R249). -/
structure Extent where
  port : Nat
  base : Nat
  size : Nat
  deriving DecidableEq, Repr

/-- What this package knows of a peer (R191, R244, R349). -/
structure Peer where
  departed : Bool
  linkUp : Bool
  deriving DecidableEq, Repr

/-- What a request on the fabric asks of a peer (R191, R244, R246, R248): to drop its copies of a line, to answer a packet of a
transfer at a window offset, to apply a delta, or to carry out an access to a line of its memory. -/
inductive FabWhat where
  | drop (off : Nat)
  | xfer (id off : Nat)
  | xget (id off : Nat)
  | delta (d : DeltaId)
  | access (off : Nat)
  deriving DecidableEq, Repr

/-- Whose access a request stands for: a stream's instruction, a command's, or another party's. -/
inductive FabBy where
  | stream (h : Nat) (pc : Dword)
  | cmd (id : Nat)
  | other
  deriving DecidableEq, Repr

/-- A request on the fabric without an answer (R244): its attempts that failed, the package whose crossbar the last one takes,
and the clock of that attempt; or one whose target holds it, to be sent again (R245). -/
structure FabReq where
  id : Nat
  peer : Nat
  what : FabWhat
  failed : Nat
  via : Option Nat
  sentAt : Nat
  held : Bool := false
  who : FabBy := .other
  deriving DecidableEq, Repr

/-- A parity delta not acknowledged (R194), formed here or at a peer's home by a store of this package, with the word that the store
left. -/
structure OutDelta where
  id : DeltaId
  off : Nat
  val : Word := 0
  deriving DecidableEq, Repr

/-- The value that the last acknowledged delta of this package to a peer's word describes (R194), and those of later stores that the
holder of the lost home's parity may have applied (R346). -/
structure SafeWord where
  key : Nat
  seq : Nat
  val : Word
  late : List Word := []
  deriving DecidableEq, Repr

/-- A pool device (R251): what it advertises, the sequence number of its next record, and its command window. -/
structure PoolDev where
  ops : Nat
  cmdBase : Dword
  slots : Nat
  version : Nat
  seq : Word
  window : NMap (List Byte)
  deriving DecidableEq, Repr

/-- A poisoned word of a parity frame: what the members have written at its position since (R342). -/
structure LostParity where
  off : Nat
  seen : NMap Word
  deriving DecidableEq, Repr

/-! ### Front end -/

/-- An event on its way to the host ring (R278). -/
structure Event where
  type : Nat
  queue : Nat
  node : Nat
  kseq : Word
  code : Word
  handle : Dword
  detail : Dword
  deriving DecidableEq, Repr

/-- A hardware queue (R272, R273). -/
structure Queue where
  qcfg : Dword
  qring : Dword
  qkey : Dword
  qidx : Dword
  fifo : List (List Byte)
  slice : Nat
  deriving DecidableEq, Repr

/-- An entry of the graph table (R268). `image` is the object as it was registered. -/
structure Graph where
  used : Bool
  gen : Nat
  base : Dword
  asid : BitVec 16
  image : List Byte
  unregister : Bool
  deriving DecidableEq, Repr

/-- The progress of a node of a replay (R269). -/
inductive NodeSt where
  | idle | running | done | failed
  deriving DecidableEq, Repr

/-- A replay (R269). `ran` and `missed` count the nodes of its calls that ran and that did not. -/
structure Replay where
  queue : Nat
  kseq : Word
  handle : Dword
  graph : Nat
  depth : Nat
  path : List Nat
  parent : Option (Nat × Nat)
  nodes : List NodeSt
  ran : Nat
  missed : Nat
  ended : Bool
  deriving DecidableEq, Repr

/-- The hold-back reservation (R282): the gang served and the unit kept for it. The gang is the launch's next new one, or the
saved one numbered `saved`. -/
structure HoldBack where
  launch : Nat
  saved : Option Nat
  level : Nat
  unit : Nat
  deriving DecidableEq, Repr

/-- The front end's work in its versioned form (R328): its queues, the pending lists of its launches, and its replays. -/
structure WorkRecord where
  version : Nat
  queues : NMap Queue
  pending : List (Nat × List Pending)
  replays : NMap Replay
  deriving DecidableEq, Repr

/-- An event handed to the arbiter (R279): the clock at which it was raised, and the warp that waits for its acceptance
(R362). -/
structure Raised where
  at_ : Nat
  hart : Option Nat
  e : Event
  deriving DecidableEq, Repr

/-- The front end's own registers (R272 to R280, R304, R341). `oldest` names the oldest pending gang at the highest priority,
and `oldestAt` the clock since which it has been that (R282). -/
structure FrontEnd where
  astbase : Dword
  evaddr : Dword
  evkey : Dword
  evcfg : Dword
  evcons : Dword
  evprod : Dword
  evovf : Dword
  nextSeq : Word
  run : Nat
  raised : List Raised
  errors : Nat
  errbase : Dword
  errcfg : Dword
  errprod : Dword
  errcons : Dword
  hold : Option HoldBack
  oldest : List Nat
  oldestAt : Nat
  quiesce : Bool
  turn : Nat := 0
  record : Option WorkRecord := none
  deriving DecidableEq, Repr

/-! ### Parity groups and Crown -/

/-- The parity registers of unit 0x003 (R343) and what the holder has received (R248). `early` are the rows at or above
NEXTROW that an access had rebuilt at once (R345), `restoring` says that a replacement is being filled (R347). `wanted` are the
poisoned words whose rebuild is scheduled, with the core that read them, and `failed` those whose rebuild failed (R342); `lost`
are the poisoned parity words; `safe` are the peers' words that this package has written, each with the last value applied to its
parity (R194, R346). -/
structure Parity where
  cfg : Dword
  memb : Dword
  reg : Dword
  size : Dword
  prog : Dword
  sent : List OutDelta
  nextSeq : NMap Nat
  applied : NMap Nat
  waiting : List Delta
  early : List Nat
  restoring : Bool
  wanted : List (Nat × Option Nat)
  failed : List Nat
  lostWords : List LostParity
  safe : List SafeWord
  deriving DecidableEq, Repr

/-- One processor's image in the firmware store (R325). -/
structure Part where
  code : List Byte
  key : List Byte
  sig : List Byte
  secver : Nat
  deriving DecidableEq, Repr

/-- A slot of the firmware store: the three images (R325), the context version it writes and those it accepts (R324). -/
structure Image where
  parts : List Part
  ctxVer : Nat
  accepts : List Nat
  deriving DecidableEq, Repr

/-- Crown, its registers (R328), measurements (R326) and the firmware flash (R329). -/
structure Crown where
  fwstat : Dword
  trial : Dword
  wdog : Dword
  readyUp : Bool
  startAt : Option Nat
  trialAt : Option Nat
  prevSlot : Nat
  released : List Nat
  kicks : NMap Nat
  meas : NMap (BitVec 256)
  fuseKey : BitVec 256
  fuseMin : Nat
  flashFails : Nat
  flashActive : Nat
  golden : Image
  slotA : Image
  slotB : Image
  negotiated : Bool
  transcript : List Byte
  /-- The digest and certificate messages that the next signature over a challenge covers (R327). -/
  challenges : List Byte
  deriving DecidableEq, Repr

/-! ### Messages that leave the package -/

/-- What the package has sent to the host, its peers and the pool's fabric manager. -/
inductive Output where
  | hostWrite (qp : Nat) (rkey : Word) (addr : Nat) (bytes : List Byte)
  | hostRead (bytes : List Byte) (err : Bool)
  | ringRead (qp : Nat) (rkey : Word) (addr : Nat)
  | packet (p : Packet) (pkg : Nat)
  | ask (p : Packet) (len pkg : Nat)
  | readReply (p : Packet) (data : List Byte) (bads : List Nat)
  | reply (pkg : Nat) (old : Dword) (bad : Bool)
  | data (pkg off : Nat) (x : Word) (bad : Bool)
  | refuse (p : Packet) (reason kind va : Nat)
  | ack (p : Packet)
  | hold (p : Packet)
  | resend (req : Nat)
  | delta (d : Delta) (pkg : Nat)
  | deltaAck (d : DeltaId)
  | invalidate (pkg home off : Nat)
  | dropped (home off : Nat)
  | detour (req via : Nat)
  | parityRead (off : Nat)
  | rejoin (pkg : Nat)
  | spdm (bytes : List Byte)
  deriving DecidableEq, Repr

/-! ### The whole machine -/

/-- The package. `cur` is the stream whose instruction executes; `harts` holds the others (log entry 1). -/
structure State where
  cur : Hart
  picked : Bool
  harts : List Hart
  groups : NMap Group
  gangs : NMap Gang
  launches : NMap Launch
  clusters : NMap Cluster
  cores : NMap Core
  dies : NMap Die
  mem : List Host.Cell
  memBad : List Nat
  copies : List Copy
  homeVer : NMap Nat
  version : Nat
  syncs : List SyncRec
  /-- The spans that the nodes track, the most recently used first (R179). -/
  spans : List SpanRec
  /-- The remote-sharer vectors by line frame (R17, R191). -/
  sharers : NMap (BitVec 16)
  /-- The home arbiter's requests of the clock `servedAt`: the word and the rank of each (R192). -/
  served : List (Nat × Nat)
  servedAt : Nat
  tlb : List Tlb
  /-- The permissions of the words that L1s and L2s hold (R311). -/
  held : List Held
  cmds : List Cmd
  extents : List Extent
  portErrors : NMap Nat
  devs : NMap PoolDev
  peers : NMap Peer
  /-- Requests on the fabric without an answer (R191, R244). -/
  fabric : List FabReq
  /-- Links between two other packages that have failed (R244). -/
  downLinks : List (Nat × Nat)
  /-- The packets counted of ticketed transfers that have not all arrived, by source and transfer (R247). -/
  arrivals : List (Nat × Nat × Nat)
  /-- The records of the error log by what failed (R335, R341). -/
  records : List (ErrSite × Word)
  parity : Parity
  podn : BitVec 4
  pkg : BitVec 4
  fe : FrontEnd
  queues : NMap Queue
  graphs : NMap Graph
  replays : NMap Replay
  crown : Crown
  powered : Bool
  hostMem : List Host.Cell
  out : List Output
  agenda : List Instr
  clock : Nat
  fresh : Nat
  nextId : Nat
  deriving DecidableEq, Repr

/-! ### Reasons to stop -/

/-- The faults of the model. -/
inductive Fault where
  /-- Raised by NODE_START: the object of a registered graph was written, and R268 gives the outcome of its launches as
  undefined. Safe: the model stops where the hardware does something it does not describe. -/
  | graphWritten
  deriving DecidableEq, Repr

/-- The refusals of the model. -/
inductive Refusal where
  /-- An instruction without a meaning. Raised by its arm of exec. Safe: nothing can be proved of it. -/
  | notModelled (mnemonic : String)
  deriving DecidableEq, Repr

/-- The outcome of a step. -/
abbrev Out := Host.Outcome State Fault Refusal

/-! ### Reset -/

/-- The tag RAW32 with scale 0 (R88). -/
def rawTag : BitVec 12 := 0
/-- The tag F32 with scale 0 (R137). -/
def f32Tag : BitVec 12 := 0x300

def VReg.zero : VReg := { lanes := Vector.replicate 32 0, tag := rawTag, full := true }
def Side.zero : Side :=
  { vaddr := 0, lanes := 0, cls := 0, pair := false, reason := 0, kind := 0, fn := 0, icls := 0, lkind := 0, pc := 0,
    detail := 0 }
/-- Registers after warp creation (R40, R88, R95, R258, R306); P1 to P15 are log entry 7. -/
def Regs.zero : Regs :=
  { s := Vector.replicate 128 0, sfull := Vector.replicate 128 true, v := Vector.replicate 1024 VReg.zero,
    p := Vector.replicate 16 0, b := Vector.replicate 8 false, sbad := [] }
def Control.zero : Control :=
  { pc := 0, em := 0xFFFFFFFF, joins := [], arriving := false, priv := false, hold := false, napEnd := none,
    missed := none, replay := none, wait := none, arrivedBar := false, arrivedGang := false,
    issued := 0 }
/-- FLG 0 (R91), WSWIN 0 (R201), PPOLL 1,024 (R215), SLIM and SPTR log entry 7. -/
def SysRegs.zero : SysRegs := { flg := 0, slim := 0, sptr := 0, wswin := 0, ppoll := 1024 }
def TrapRegs.zero : TrapRegs :=
  { tpc := 0, tstat := 0, tskid := 0, tsfov := 0, tscr := Vector.replicate 4 0, side := Side.zero, undo := none }
def Accesses.zero : Accesses :=
  { returning := [], stores := [], sfrecs := [], cp := [], mx := [], ga := [], fb := [], fails := [] }
def Tile.zero : Tile := { elems := Vector.replicate 4096 0, tag := f32Tag }
def Bowler.zero : Bowler :=
  { eflg := 0, tiles := Vector.replicate 8 Tile.zero, descA := none, descB := none, rp := 0, rstack := [],
    stopped := false, saved := false, schk := false }
def Place.zero : Place :=
  { core := 0, slot := 0, group := 0, launch := 0, widx := 0, regs := 1024, wid0 := 0, region := none }
/-- The idle executor (log entry 8): no warp runs after reset. -/
def Hart.idle : Hart :=
  { id := 0, role := .warp, live := false, pl := Place.zero, r := Regs.zero, c := Control.zero, y := SysRegs.zero,
    t := TrapRegs.zero, m := Accesses.zero, sch := { unpicked := 0, lastPick := none, created := 0, skid := none },
    bow := Bowler.zero }
/-- What an unlisted workgroup reads as. -/
def Group.zero : Group :=
  { launch := 0, gang := 0, wgnum := 0, core := 0, slot := 0, nwarps := 1, regs := 1024, asid := 0, seed := true,
    pinned := false, scratchSize := 262144, scratch := [], scratchBad := [], mctl := 1, hbase := 0,
    epw := Vector.replicate 4 0, epc := Vector.replicate 4 0, cring := 0, crcons := 0, bcount := none, halt := none,
    phase := .resident, posts := [], swapDone := false, spilled := false, postsAt := 0 }
def Gang.zero : Gang := { launch := 0, groups := [], coloc := 0, pinned := false, saveAsked := false, stopping := false }
def Header.zero : Header :=
  { wgEntry := 0, seedEntry := 0, bowlEntry := 0, widths := [5], wgb := 1, gb := 1, coloc := 0, regs := 8,
    scratch := 0, seedScr := 0, stack := 0, pri := 0, pinned := false }
def Launch.zero : Launch :=
  { queue := 0, replay := 0, node := 0, kseq := 0, handle := 0, hdr := Header.zero, asid := 0, param := 0, pri := 0,
    counter := 0, pending := [], since := 0, wswin := 0, stkn := 0, stksz := 0, stkbase := 0, seedPlaced := false, lostGroups := 0, complete := true }
def Entry.zero : Entry :=
  { st := .free, gen := 0, payload := 0, pri := 0, req := 0, tok := 0, hart := 0, group := 0, launch := 0, opId := 0,
    age := 0, raised := 0, since := 0 }
/-- MXCFG: PINRES 2 and AGEUP 64 (R145). -/
def Cluster.zero : Cluster :=
  { table := Vector.replicate 16 Entry.zero, admitted := 0, mxcfg := 0x20040, btr0 := 0, btr1 := 0, btr2 := 0, cclk := 0 }
def Core.zero : Core := { slipc := 0, cclk := 0, turn := 0, busyUntil := 0 }
/-- WREF: PERIOD 4,096, WINDOW 256, ORDER 0, NEXT 0 (R178); the first nominal start is log entry 7. -/
def Die.zero : Die :=
  { failed := false, rebuild := none, spans := [], icache := [], soft := 0, period := 4096, window := 256, order := 0, bank := 0,
    nominal := 4096, openUntil := none, deferClocks := 0, forced := 0 }
def Peer.zero : Peer := { departed := false, linkUp := true }
/-- A port whose device advertises nothing (R251). -/
def PoolDev.zero : PoolDev := { ops := 0, cmdBase := 0, slots := 0, version := 0, seq := 0, window := [] }
def Queue.zero : Queue := { qcfg := 0, qring := 0, qkey := 0, qidx := 0, fifo := [], slice := 0 }
def Graph.zero : Graph := { used := false, gen := 0, base := 0, asid := 0, image := [], unregister := false }
def Replay.zero : Replay :=
  { queue := 0, kseq := 0, handle := 0, graph := 0, depth := 0, path := [], parent := none, nodes := [], ran := 0, missed := 0,
    ended := true }
def FrontEnd.zero : FrontEnd :=
  { astbase := 0, evaddr := 0, evkey := 0, evcfg := 0, evcons := 0, evprod := 0, evovf := 0, nextSeq := 0, run := 0,
    raised := [], errors := 0, errbase := 0, errcfg := 0, errprod := 0, errcons := 0, hold := none, oldest := [],
    oldestAt := 0, quiesce := false }
def Parity.zero : Parity :=
  { cfg := 0, memb := 0, reg := 0, size := 0, prog := 0, sent := [], nextSeq := [], applied := [], waiting := [],
    early := [], restoring := false, wanted := [], failed := [], lostWords := [], safe := [] }
def Image.zero : Image := { parts := [], ctxVer := 1, accepts := [1] }
/-- FWSTAT.CTXVER 1, TRIAL 6,000,000,000, WDOG 100,000,000 (R328); the flash is log entry 7. -/
def Crown.zero : Crown :=
  { fwstat := 0x10000, trial := 6000000000, wdog := 100000000, readyUp := false, startAt := none,
    trialAt := none, prevSlot := 0, released := [], kicks := [], meas := [], fuseKey := 0, fuseMin := 0,
    flashFails := 0, flashActive := 0, golden := Image.zero, slotA := Image.zero, slotB := Image.zero,
    negotiated := false, transcript := [], challenges := [] }

/-- The machine right after reset: nothing resident, nothing cached, memory unlisted, every register at its reset
value. -/
def State.reset : State :=
  { cur := Hart.idle, picked := false, harts := [], groups := [], gangs := [], launches := [], clusters := [],
    cores := [], dies := [], mem := [], memBad := [], copies := [], homeVer := [], version := 0, syncs := [], spans := [], sharers := [], served := [], servedAt := 0, tlb := [], held := [], cmds := [],
    extents := [], portErrors := [], devs := [], peers := [], fabric := [], downLinks := [], arrivals := [], records := [], parity := Parity.zero, podn := 0, pkg := 0,
    fe := FrontEnd.zero, queues := [], graphs := [], replays := [], crown := Crown.zero, powered := true,
    hostMem := [], out := [], agenda := [], clock := 0, fresh := 0, nextId := 1 }

end Sys2Proof.Machine
end

