-- ==== Sys2Proof/Machine/Mem.lean ====
section
/-!
DEFINITION. Memory as one canonical list of bytes, and the numbering that gives every physical byte of the machine (R21)
one key. A byte that nothing has written reads 0 (log entry 5).
-/

namespace Sys2Proof.Machine

/-- The byte at a key; an unlisted byte reads 0 (log entry 5). -/
def memGet : List Host.Cell → Nat → Byte
  | [], _ => 0
  | (a, b) :: rest, k => if a = k then b else memGet rest k

/-- The memory with byte `x` at key `k`, in canonical form. -/
def memSet : List Host.Cell → Nat → Byte → List Host.Cell
  | [], k, x => if x = 0 then [] else [(k, x)]
  | (a, b) :: rest, k, x =>
    if a = k then (if x = 0 then rest else (k, x) :: rest)
    else if k < a then (if x = 0 then (a, b) :: rest else (k, x) :: (a, b) :: rest)
    else (a, b) :: memSet rest k x

/-- Keys strictly rise from `lo` on and no byte listed is 0. -/
def memSorted : Nat → List Host.Cell → Bool
  | _, [] => true
  | lo, (a, b) :: rest => lo ≤ a && b != 0 && memSorted (a + 1) rest

/-- The canonical form. -/
def memWf (m : List Host.Cell) : Bool := memSorted 0 m

/-- `n` bytes from key `k` on. -/
def memRead (m : List Host.Cell) (k : Nat) : Nat → List Byte
  | 0 => []
  | n + 1 => memGet m k :: memRead m (k + 1) n

/-- The bytes `bs` at key `k` on. -/
def memWrite (m : List Host.Cell) (k : Nat) : List Byte → List Host.Cell
  | [] => m
  | b :: bs => memWrite (memSet m k b) (k + 1) bs

/-- The little-endian number of `n` bytes from `k` on (R3). -/
def memNat (m : List Host.Cell) (k n : Nat) : Nat := leNat (memRead m k n)

/-- The key of a byte: KIND, package and offset (R21). -/
def physKey (kind peer off : Nat) : Nat := kind * 2 ^ 60 + peer * 2 ^ 52 + off
/-- The key of a word. -/
def pwKey (w : PWord) : Nat := physKey w.kind w.peer w.off
/-- The key of a byte of local HBM. -/
def hbmKey (off : Nat) : Nat := physKey 0 0 off

/-- A word of memory. -/
def memWord (m : List Host.Cell) (k : Nat) : Word := BitVec.ofNat 32 (memNat m k 4)
/-- Memory with a word written. -/
def memPutWord (m : List Host.Cell) (k : Nat) (x : Word) : List Host.Cell := memWrite m k (leBytes 4 x.toNat)

/-- `l` without `x`. -/
def dropNat (l : List Nat) (x : Nat) : List Nat := l.filter (fun y => y != x)
/-- `l` with `x` listed once. -/
def addNat (l : List Nat) (x : Nat) : List Nat := if l.contains x then l else x :: l

end Sys2Proof.Machine
end

