-- ==== Sys2Proof/Machine/Num.lean ====
section
/-!
DEFINITION. The linear floating-point formats (R72 to R74): decoding, exact arithmetic, rounding with flags, and the
conversions to integers of R71. A result is exact until the one rounding at its end.
-/

namespace Sys2Proof.Machine

/-! ### Flags (R91) -/

abbrev Flags := BitVec 8
def fIX : Flags := 1
def fOF : Flags := 2
def fUF : Flags := 4
def fIV : Flags := 8
def fDZ : Flags := 16
def fLSAT : Flags := 32
def fLUNF : Flags := 64
def fNARP : Flags := 128

/-! ### Formats -/

/-- A linear format: width, exponent bits and fraction bits (R72). -/
structure Fmt where
  w : Nat
  eb : Nat
  fb : Nat
  deriving DecidableEq, Repr

def F32 : Fmt := { w := 32, eb := 8, fb := 23 }
def BF16 : Fmt := { w := 16, eb := 8, fb := 7 }
def F16 : Fmt := { w := 16, eb := 5, fb := 10 }

/-- The exponent bias. -/
def Fmt.bias (F : Fmt) : Nat := 2 ^ (F.eb - 1) - 1
/-- The magnitude code of infinity. -/
def Fmt.infCode (F : Fmt) : Nat := (2 ^ F.eb - 1) * 2 ^ F.fb
/-- The canonical NaN, with sign 0 (R73). -/
def Fmt.nan (F : Fmt) : Nat := F.infCode + 2 ^ (F.fb - 1)
/-- The sign bit. -/
def Fmt.signBit (F : Fmt) (neg : Bool) : Nat := if neg then 2 ^ (F.w - 1) else 0
/-- The exponent of the smallest subnormal: every finite value is a multiple of 2 to it. -/
def Fmt.qmin (F : Fmt) : Int := 1 - (F.bias : Int) - F.fb

/-- A decoded element: NaN, infinity, or a sign and `m` times 2 to the `e`. -/
inductive FVal where
  | nan
  | inf (neg : Bool)
  | fin (neg : Bool) (m : Nat) (e : Int)
  deriving DecidableEq, Repr

/-- The value of a code (R72). -/
def fdecode (F : Fmt) (c : Nat) : FVal :=
  let neg := decide (c / 2 ^ (F.w - 1) % 2 = 1)
  let mag := c % 2 ^ (F.w - 1)
  let ex := mag / 2 ^ F.fb
  let fr := mag % 2 ^ F.fb
  if mag > F.infCode then .nan
  else if mag = F.infCode then .inf neg
  else if ex = 0 then .fin neg fr F.qmin
  else .fin neg (fr + 2 ^ F.fb) (F.qmin + (ex : Int) - 1)

/-- A sign is negative. -/
def FVal.isNeg : FVal → Bool
  | .nan => false
  | .inf n => n
  | .fin n _ _ => n

/-- The integer `m` times 2 to the `e - q`, for `q ≤ e`. -/
def shiftTo (m : Nat) (e q : Int) : Nat := m * 2 ^ (e - q).toNat

/-- The signed value of a finite element in units of 2 to the `q`. -/
def FVal.units (v : FVal) (q : Int) : Int :=
  match v with
  | .fin n m e => if n then -(shiftTo m e q : Int) else (shiftTo m e q : Int)
  | _ => 0

/-- The exponent of a finite element. -/
def FVal.exp : FVal → Int
  | .fin _ _ e => e
  | _ => 0

/-! ### Rounding -/

/-- What rounding a value gives: one code with its flags, or under .sr a choice between two neighbours by the discard
`d` (R84, R85). -/
inductive Narrow where
  | fixed (code : Nat) (flags : Flags)
  | choice (lo hi d : Nat) (loFlags hiFlags : Flags)
  deriving DecidableEq, Repr

/-- The discard that an element shows its neighbours (R84, R85). -/
def Narrow.discard : Narrow → Nat
  | .fixed _ _ => 0
  | .choice _ _ d _ _ => d

/-- The code and flags, given the comparand of R85. -/
def Narrow.resolve (n : Narrow) (r : Nat) : Nat × Flags :=
  match n with
  | .fixed c f => (c, f)
  | .choice lo hi d lf hf => if d > r then (hi, hf) else (lo, lf)

/-- The floor of the logarithm to base 2 of the positive rational `n / d`. -/
def floorLog2 (n d : Nat) : Int :=
  let e : Int := (Nat.log2 n : Int) - (Nat.log2 d : Int)
  let ge := if e ≥ 0 then decide (n ≥ d * 2 ^ e.toNat) else decide (n * 2 ^ (-e).toNat ≥ d)
  if ge then e else e - 1

/-- `n / d` in units of 2 to the `q`, as a quotient of naturals. -/
def scaled (n d : Nat) (q : Int) : Nat × Nat := if q ≥ 0 then (n, d * 2 ^ q.toNat) else (n * 2 ^ (-q).toNat, d)

/-- Whether a magnitude between `m` and `m + 1` with remainder `r / d` rounds up under RM 0 to 3 (R44). -/
def roundsUp (rm : Nat) (neg : Bool) (m r d : Nat) : Bool :=
  if rm = 0 then 2 * r > d || (2 * r == d && m % 2 == 1)
  else if rm = 1 then false
  else if rm = 2 then !neg && r != 0
  else if rm = 3 then neg && r != 0
  else false

/-- The magnitude code of an overflow (R74). -/
def overflowMag (F : Fmt) (rm : Nat) (neg : Bool) : Nat :=
  if rm = 0 then F.infCode
  else if rm = 2 then (if neg then F.infCode - 1 else F.infCode)
  else if rm = 3 then (if neg then F.infCode else F.infCode - 1)
  else F.infCode - 1

/-- The non-zero rational magnitude `n / d` with sign `neg` rounded to `F` (R73, R74). DESIGN CHOICE, log entry 23: under .sr a
value between the largest finite one and the next step above it always overflows, whatever the draw. -/
def roundRat (F : Fmt) (rm : Nat) (neg : Bool) (n d : Nat) : Narrow :=
  let e := floorLog2 n d
  let q := max (e - F.fb) F.qmin
  let (a, b) := scaled n d q
  let m := a / b
  let r := a % b
  let base := (q - F.qmin).toNat * 2 ^ F.fb
  let sb := F.signBit neg
  if rm = 4 then
    if base + m ≥ F.infCode then .fixed (sb + (F.infCode - 1)) (fOF ||| fIX)
    else if r = 0 then .fixed (sb + base + m) 0
    else
      let fl := fun c => if c < 2 ^ F.fb then fIX ||| fUF else fIX
      let dd := r * 2 ^ 16 / b
      if base + m + 1 ≥ F.infCode then .fixed (sb + (F.infCode - 1)) (fOF ||| fIX)
      else .choice (sb + base + m) (sb + base + m + 1) dd (fl (base + m)) (fl (base + m + 1))
  else
    let c := base + m + (if roundsUp rm neg m r b then 1 else 0)
    if c ≥ F.infCode then .fixed (sb + overflowMag F rm neg) (fOF ||| fIX)
    else if r = 0 then .fixed (sb + c) 0
    else
      -- tininess after rounding, as if the exponent were unbounded
      let (a', b') := scaled n d (e - F.fb)
      let up' := roundsUp rm neg (a' / b') (a' % b') b'
      let emin : Int := F.qmin + F.fb
      let tiny := e < emin - 1 || (e == emin - 1 && !(up' && a' / b' + 1 == 2 ^ (F.fb + 1)))
      .fixed (sb + c) (if tiny then fIX ||| fUF else fIX)

/-- A value rounded to `F`; a zero keeps the sign given. -/
def roundUnits (F : Fmt) (rm : Nat) (zeroNeg : Bool) (x : Int) (q : Int) : Narrow :=
  if x = 0 then .fixed (F.signBit zeroNeg) 0
  else if q ≥ 0 then roundRat F rm (x < 0) (x.natAbs * 2 ^ q.toNat) 1
  else roundRat F rm (x < 0) x.natAbs (2 ^ (-q).toNat)

/-- A rounding that is never .sr. -/
def Narrow.get (n : Narrow) : Nat × Flags := n.resolve 65536

/-! ### Operations -/

/-- The sign of a zero sum of terms with these signs (R73). -/
def zeroSign (rm : Nat) (signs : List Bool) : Bool :=
  if signs.all (· == true) then true else if signs.all (· == false) then false else rm == 3

/-- The infinities among terms: none, one sign, or both. -/
def infOf (vs : List FVal) : Option Bool × Bool :=
  let negs := vs.any (fun v => v == .inf true)
  let poss := vs.any (fun v => v == .inf false)
  (if negs then some true else if poss then some false else none, negs && poss)

/-- The product of two elements, exact; the flag says invalid (0 times infinity). -/
def fprod (a b : FVal) : FVal × Bool :=
  match a, b with
  | .inf n, .fin m x _ => if x = 0 then (.nan, true) else (.inf (n != m), false)
  | .fin m x _, .inf n => if x = 0 then (.nan, true) else (.inf (n != m), false)
  | .inf n, .inf m => (.inf (n != m), false)
  | .fin n x e, .fin m y g => (.fin (n != m) (x * y) (e + g), false)
  | _, _ => (.nan, false)

/-- The negation of an element; a NaN has no sign. -/
def FVal.neg : FVal → FVal
  | .nan => .nan
  | .inf n => .inf (!n)
  | .fin n m e => .fin (!n) m e

/-- The sum of exact terms rounded once; `iv` says that a term was already invalid (R73, R113, R116). -/
def fsum (F : Fmt) (rm : Nat) (vs : List FVal) (iv : Bool) : Nat × Flags :=
  let (inf, both) := infOf vs
  if iv then (F.nan, fIV)
  else if vs.any (· == .nan) then (F.nan, 0)
  else if both then (F.nan, fIV)
  else match inf with
    | some n => (F.signBit n + F.infCode, 0)
    | none =>
      let q := vs.foldl (fun acc v => min acc v.exp) 0
      let x := vs.foldl (fun acc v => acc + v.units q) 0
      (roundUnits F rm (zeroSign rm (vs.map FVal.isNeg)) x q).get

def faddOp (F : Fmt) (rm a b : Nat) : Nat × Flags := fsum F rm [fdecode F a, fdecode F b] false
def fsubOp (F : Fmt) (rm a b : Nat) : Nat × Flags := fsum F rm [fdecode F a, (fdecode F b).neg] false

/-- One exact value rounded. -/
def fout (F : Fmt) (rm : Nat) (v : FVal) (iv : Bool) : Nat × Flags :=
  match v with
  | .nan => (F.nan, if iv then fIV else 0)
  | .inf n => (F.signBit n + F.infCode, 0)
  | .fin n m e => (roundUnits F rm n (if n then -(m : Int) else m) e).get

def fmulOp (F : Fmt) (rm a b : Nat) : Nat × Flags :=
  let (p, iv) := fprod (fdecode F a) (fdecode F b)
  fout F rm p iv

/-- The fused forms (R113): the product, negated if `np`, plus `c`, negated if `nc`. -/
def ffmaOp (F : Fmt) (rm a b c : Nat) (np nc : Bool) : Nat × Flags :=
  let (p, iv) := fprod (fdecode F a) (fdecode F b)
  let p := if np then p.neg else p
  let c := if nc then (fdecode F c).neg else fdecode F c
  fsum F rm [p, c] iv

/-- FDOT2 (R116): elements of format `G`, sum in F32. -/
def fdot2Op (G : Fmt) (rm a0 b0 a1 b1 c : Nat) : Nat × Flags :=
  let (p, i0) := fprod (fdecode G a0) (fdecode G b0)
  let (q, i1) := fprod (fdecode G a1) (fdecode G b1)
  fsum F32 rm [fdecode F32 c, p, q] (i0 || i1)

/-- FDIV (R115). -/
def fdivOp (F : Fmt) (rm a b : Nat) : Nat × Flags :=
  match fdecode F a, fdecode F b with
  | .nan, _ => (F.nan, 0)
  | _, .nan => (F.nan, 0)
  | .inf _, .inf _ => (F.nan, fIV)
  | .inf n, .fin m _ _ => (F.signBit (n != m) + F.infCode, 0)
  | .fin n _ _, .inf m => (F.signBit (n != m), 0)
  | .fin n x e, .fin m y g =>
    if y = 0 then (if x = 0 then (F.nan, fIV) else (F.signBit (n != m) + F.infCode, fDZ))
    else if x = 0 then (F.signBit (n != m), 0)
    else
      let (p, d) := scaled x y (g - e)
      (roundRat F rm (n != m) p d).get

/-- The integer square root of `n`, built from bit `k - 1` down. -/
def isqrtAux (n : Nat) : Nat → Nat → Nat
  | 0, r => r
  | k + 1, r => isqrtAux n k (if (r + 2 ^ k) * (r + 2 ^ k) ≤ n then r + 2 ^ k else r)

/-- The integer square root. -/
def isqrt (n : Nat) : Nat := isqrtAux n (Nat.log2 n / 2 + 1) 0

/-- The square root of the positive rational `n / d` as a rational that rounds to any format here as the root does: 40
bits of it and a sticky bit. -/
def sqrtRat (n d : Nat) : Nat × Nat :=
  let e := floorLog2 n d / 2
  let (a, b) := scaled n d (2 * (e - 40))
  let m := isqrt (a / b)
  let exact := a % b = 0 ∧ m * m = a / b
  let num := 2 * m + (if exact then 0 else 1)
  scaled num 2 (40 - e)

/-- FSQRT (R115). -/
def fsqrtOp (F : Fmt) (rm a : Nat) : Nat × Flags :=
  match fdecode F a with
  | .nan => (F.nan, 0)
  | .inf n => if n then (F.nan, fIV) else (F.infCode, 0)
  | .fin n x e =>
    if x = 0 then (F.signBit n, 0)
    else if n then (F.nan, fIV)
    else
      let (p, d) := scaled x 1 (-e)
      let (sn, sd) := sqrtRat p d
      (roundRat F rm false sn sd).get

/-- Comparison of two elements: none when unordered (R109). -/
def fcompare (a b : FVal) : Option Ordering :=
  match a, b with
  | .nan, _ => none
  | _, .nan => none
  | .inf n, .inf m => some (if n == m then .eq else if n then .lt else .gt)
  | .inf n, _ => some (if n then .lt else .gt)
  | _, .inf m => some (if m then .gt else .lt)
  | .fin n x e, .fin m y g =>
    let q := min e g
    some (compare ((FVal.fin n x e).units q) ((FVal.fin m y g).units q))

/-- FMIN and FMAX (R114): −0 lies below +0, and a NaN loses. -/
def fminmaxOp (F : Fmt) (wantMax : Bool) (a b : Nat) : Nat :=
  match fcompare (fdecode F a) (fdecode F b) with
  | none =>
    if fdecode F a = .nan then (if fdecode F b = .nan then F.nan else b) else a
  | some .lt => if wantMax then b else a
  | some .gt => if wantMax then a else b
  | some .eq => if (fdecode F a).isNeg == wantMax then b else a

/-- FRND (R114). -/
def frndOp (F : Fmt) (rm a : Nat) : Nat :=
  match fdecode F a with
  | .nan => F.nan
  | .inf _ => a
  | .fin n x e =>
    if x = 0 ∨ e ≥ 0 then a
    else
      let d := 2 ^ (-e).toNat
      let m := x / d + (if roundsUp rm n (x / d) (x % d) d then 1 else 0)
      if m = 0 then F.signBit n else (roundRat F 0 n m 1).get.1

/-- FCLASS of an F32 element (R114). -/
def fclassOp (a : Nat) : Nat :=
  let neg := decide (a / 2 ^ 31 % 2 = 1)
  let mag := a % 2 ^ 31
  if mag > F32.infCode then 256
  else if mag = F32.infCode then (if neg then 1 else 128)
  else if mag ≥ 2 ^ 23 then (if neg then 2 else 64)
  else if mag > 0 then (if neg then 4 else 32)
  else (if neg then 8 else 16)

/-- FABS and FNEG (R114). -/
def fabsOp (F : Fmt) (a : Nat) : Nat := if fdecode F a = .nan then F.nan else a % 2 ^ (F.w - 1)
def fnegOp (F : Fmt) (a : Nat) : Nat := if fdecode F a = .nan then F.nan else (a + 2 ^ (F.w - 1)) % 2 ^ F.w

/-- IEEE 754 totalOrder of two F32 codes as a key (R133). -/
def totalKey (a : Nat) : Int := if a < 2 ^ 31 then (a : Int) else -((a : Int) - 2 ^ 31) - 1

/-! ### Integers (R70, R71) -/

/-- A two's-complement reading of `w` bits. -/
def signedOf (w x : Nat) : Int := if x % 2 ^ w < 2 ^ (w - 1) then ((x % 2 ^ w : Nat) : Int) else ((x % 2 ^ w : Nat) : Int) - 2 ^ w
/-- The low `w` bits of an integer. -/
def wrapTo (w : Nat) (x : Int) : Nat := (x % (2 ^ w : Int)).toNat
/-- The value of an element under a signedness. -/
def valOf (w : Nat) (signed : Bool) (x : Nat) : Int := if signed then signedOf w x else ((x % 2 ^ w : Nat) : Int)
/-- The bounds of an integer format. -/
def intMin (w : Nat) (signed : Bool) : Int := if signed then -(2 ^ (w - 1) : Int) else 0
def intMax (w : Nat) (signed : Bool) : Int := if signed then 2 ^ (w - 1) - 1 else 2 ^ w - 1
/-- Saturation to an integer format. -/
def saturate (w : Nat) (signed : Bool) (x : Int) : Int := max (intMin w signed) (min (intMax w signed) x)

/-- The signed rational `x / d` converted to an integer format (R71). -/
def toIntRat (w : Nat) (signed : Bool) (rm : Nat) (x : Int) (d : Nat) : Nat × Flags :=
  let m := x.natAbs / d
  let r := x.natAbs % d
  let m := m + (if roundsUp rm (x < 0) m r d then 1 else 0)
  let v : Int := if x < 0 then -(m : Int) else m
  if v < intMin w signed ∨ v > intMax w signed then (wrapTo w (saturate w signed v), fIV)
  else (wrapTo w v, if r = 0 then 0 else fIX)

/-- A linear element converted to an integer format (R71), times 2 to the `sh` first (R119). -/
def toIntOp (F : Fmt) (w : Nat) (signed : Bool) (rm sh a : Nat) : Nat × Flags :=
  match fdecode F a with
  | .nan => (0, fIV)
  | .inf n => (wrapTo w (if n then intMin w signed else intMax w signed), fIV)
  | .fin n x e =>
    let e := e + sh
    let v := x * 2 ^ (max e 0).toNat
    toIntRat w signed rm (if n then -(v : Int) else v) (2 ^ (max (-e) 0).toNat)

/-- An integer over 2 to the `sh`, rounded to a linear format (R86, R119). -/
def fromIntOp (F : Fmt) (rm : Nat) (x : Int) (sh : Nat) : Narrow := roundUnits F rm false x (-(sh : Int))

end Sys2Proof.Machine
end

