-- ==== Sys2Proof/Machine/Ops.lean ====
section
/-!
DEFINITION. The named operations over registers and the package's records: register files with their fixed registers
(R10), records by number, events (R279), retirement, ending a workgroup (R357), halting (R333, R334), taking a trap
(R330) and returning from one (R355).
-/

namespace Sys2Proof.Machine

/-! ### Vectors indexed by numbers -/

/-- Element `i`, or `d` outside the vector. -/
def vget {α : Type} {n : Nat} (v : Vector α n) (i : Nat) (d : α) : α := if h : i < n then v[i] else d
/-- The vector with `x` at `i`, unchanged where `i` lies outside. -/
def vset {α : Type} {n : Nat} (v : Vector α n) (i : Nat) (x : α) : Vector α n :=
  if h : i < n then v.set i x else v

/-- Bits `[lo + len - 1 : lo]` of a 64-bit value with `x` in them (R4). -/
def putBits (w : Dword) (lo len x : Nat) : Dword :=
  BitVec.ofNat 64 (w.toNat - bitsOf w.toNat lo len * 2 ^ lo + x % 2 ^ len * 2 ^ lo)
/-- Bits `[lo + len - 1 : lo]` of a 64-bit value. -/
def getBits (w : Dword) (lo len : Nat) : Nat := bitsOf w.toNat lo len
/-- A bit of a 64-bit value as a Bool. -/
def bit (w : Dword) (i : Nat) : Bool := w.getLsbD i
/-- A Bool as a number. -/
def bnat (b : Bool) : Nat := if b then 1 else 0

/-- The least element of a list by an order, the first of equals. -/
def leastBy {α : Type} (lt : α → α → Bool) : List α → Option α
  | [] => none
  | x :: rest => match leastBy lt rest with
    | none => some x
    | some y => if lt y x then some y else some x

/-- The lexical order of lists of numbers. -/
def ltNats : List Nat → List Nat → Bool
  | a :: as, b :: bs => if a = b then ltNats as bs else decide (a < b)
  | [], _ :: _ => true
  | _, [] => false

/-! ### Registers of a stream (R10, R38, R40) -/

/-- A scalar register; S0 reads zero. -/
def Regs.getS (r : Regs) (n : Nat) : Dword := if n = 0 then 0 else vget r.s n 0
/-- A scalar register written; a write to S0 is discarded. A write replaces contents that failed correction. -/
def Regs.setS (r : Regs) (n : Nat) (x : Dword) : Regs :=
  if n = 0 then r else { r with s := vset r.s n x, sbad := dropNat r.sbad n, acq := dropNat r.acq n }
/-- A scalar register written with the status of a matrix request (R163). -/
def Regs.setToken (r : Regs) (n : Nat) (x : Dword) : Regs :=
  if n = 0 then r else { r.setS n x with acq := addNat r.acq n }
/-- A predicate; P0 reads all-true. -/
def Regs.getP (r : Regs) (n : Nat) : Word := if n = 0 then 0xFFFFFFFF else vget r.p n 0
/-- A predicate written; a write to P0 is discarded. -/
def Regs.setP (r : Regs) (n : Nat) (x : Word) : Regs := if n = 0 then r else { r with p := vset r.p n x }
def Regs.getB (r : Regs) (n : Nat) : Bool := vget r.b n false
def Regs.setB (r : Regs) (n : Nat) (x : Bool) : Regs := { r with b := vset r.b n x }
def Regs.getV (r : Regs) (n : Nat) : VReg := vget r.v n VReg.zero
def Regs.setV (r : Regs) (n : Nat) (x : VReg) : Regs := { r with v := vset r.v n x }
/-- A lane of a vector register. -/
def VReg.lane (x : VReg) (l : Nat) : Word := vget x.lanes l 0
/-- The format code of a tag (R88). -/
def tagCode (t : BitVec 12) : Nat := t.toNat / 256
/-- The block scale of a tag (R88). -/
def tagScale (t : BitVec 12) : Int := (t.extractLsb' 0 8).toInt
/-- The tag of a format code with a scale. -/
def mkTag (code : Nat) (scale : Int) : BitVec 12 := BitVec.ofNat 4 code ++ BitVec.ofInt 8 scale
/-- The one tag of a POISON register (R90). -/
def poisonTag : BitVec 12 := 0xF00
/-- A tag as it is written: POISON always has scale 0, and only L formats keep a scale (R90). -/
def normTag (t : BitVec 12) : BitVec 12 :=
  if tagCode t = 15 then poisonTag
  else if tagCode t = 6 ∨ tagCode t = 7 then t
  else mkTag (tagCode t) 0
/-- A vector register's contents written, its tag with it. -/
def Regs.writeV (r : Regs) (n : Nat) (lanes : Vector Word 32) (tag : BitVec 12) : Regs :=
  r.setV n { r.getV n with lanes := lanes, tag := tag }
/-- The full/empty bits (R40); S0 is always full. -/
def Regs.fullS (r : Regs) (n : Nat) : Bool := n == 0 || vget r.sfull n true
def Regs.setFullS (r : Regs) (n : Nat) (b : Bool) : Regs := if n = 0 then r else { r with sfull := vset r.sfull n b }
def Regs.fullV (r : Regs) (n : Nat) : Bool := (r.getV n).full
def Regs.setFullV (r : Regs) (n : Nat) (b : Bool) : Regs := r.setV n { r.getV n with full := b }

/-- The guard of an instruction, inverted when its sense is 1 (R37). -/
def guardMask (r : Regs) (g : Guard) : Word := if g.gs then ~~~ (r.getP g.gp.toNat) else r.getP g.gp.toNat

/-- The lane mask (R8, R37): EM and the guard, or the replay mask of RFT (R355). A Bowler stream has one thread. -/
def laneMask (h : Hart) (g : Guard) : Word :=
  match h.role with
  | .bowler => 1
  | .warp => match h.c.replay with
    | some m => m
    | none => h.c.em &&& guardMask h.r g

/-! ### Records by number -/

def State.group (s : State) (g : Nat) : Group := s.groups.at g Group.zero
def State.setGroup (s : State) (g : Nat) (x : Group) : State := { s with groups := s.groups.put g x }
def State.gang (s : State) (g : Nat) : Gang := s.gangs.at g Gang.zero
def State.launch (s : State) (l : Nat) : Launch := s.launches.at l Launch.zero
def State.setLaunch (s : State) (l : Nat) (x : Launch) : State := { s with launches := s.launches.put l x }
def State.cluster (s : State) (c : Nat) : Cluster := s.clusters.at c Cluster.zero
def State.setCluster (s : State) (c : Nat) (x : Cluster) : State := { s with clusters := s.clusters.put c x }
def State.core (s : State) (c : Nat) : Core := s.cores.at c Core.zero
def State.setCore (s : State) (c : Nat) (x : Core) : State := { s with cores := s.cores.put c x }
def State.die (s : State) (d : Nat) : Die := s.dies.at d Die.zero
def State.setDie (s : State) (d : Nat) (x : Die) : State := { s with dies := s.dies.put d x }
def State.peer (s : State) (p : Nat) : Peer := s.peers.at p Peer.zero
def State.queue (s : State) (q : Nat) : Queue := s.queues.at q Queue.zero
def State.setQueue (s : State) (q : Nat) (x : Queue) : State := { s with queues := s.queues.put q x }
def State.graph (s : State) (g : Nat) : Graph := s.graphs.at g Graph.zero
def State.replay (s : State) (r : Nat) : Replay := s.replays.at r Replay.zero

/-- The workgroup of the executing stream. -/
def State.myGroup (s : State) : Group := s.group s.cur.pl.group
def State.setMyGroup (s : State) (g : Group) : State := s.setGroup s.cur.pl.group g

/-- The clock counter of a stream's core, or of its Bowler (R292). -/
def State.clockOf (s : State) (h : Hart) : Nat :=
  match h.role with
  | .warp => (s.core h.pl.core).cclk
  | .bowler => (s.cluster (h.pl.core / 4)).cclk
/-- The clock counter of the executing stream. -/
def State.now (s : State) : Nat := s.clockOf s.cur

/-- Flat indices from a core's (R18). -/
def clusterOf (core : Nat) : Nat := core / 4
def dieOf (core : Nat) : Nat := core / 32
def stackOf (core : Nat) : Nat := core / 64
def halfOf (core : Nat) : Nat := core / 256

/-- The address space of a stream. -/
def State.asidOf (s : State) (h : Hart) : BitVec 16 :=
  match h.role with
  | .warp => (s.group h.pl.group).asid
  | .bowler => (s.launch h.pl.launch).asid

/-- The executing stream changed. -/
def State.mapCur (s : State) (f : Hart → Hart) : State := { s with cur := f s.cur }
def State.mapRegs (s : State) (f : Regs → Regs) : State := { s with cur := { s.cur with r := f s.cur.r } }
def State.mapCtl (s : State) (f : Control → Control) : State := { s with cur := { s.cur with c := f s.cur.c } }
def State.mapAcc (s : State) (f : Accesses → Accesses) : State := { s with cur := { s.cur with m := f s.cur.m } }
def State.setFlg (s : State) (x : Dword) : State := { s with cur := { s.cur with y := { s.cur.y with flg := x } } }

/-- Every stream, the executing one first. -/
def State.allHarts (s : State) : List Hart := s.cur :: s.harts
/-- The stream numbered `id`, if there is one. -/
def State.hart? (s : State) (id : Nat) : Option Hart := s.allHarts.find? (fun h => h.id == id)
/-- Every stream changed. -/
def State.mapHarts (s : State) (f : Hart → Hart) : State := { s with cur := f s.cur, harts := s.harts.map f }
/-- The stream numbered `id` changed. -/
def State.updHart (s : State) (id : Nat) (f : Hart → Hart) : State :=
  s.mapHarts (fun h => if h.id = id then f h else h)

/-- The streams with the executing one exchanged for the one numbered `id`. -/
def State.focus (s : State) (id : Nat) : State :=
  if s.cur.id = id then s
  else match s.harts.find? (fun h => h.id == id) with
    | none => s
    | some h => { s with cur := h, harts := s.cur :: s.harts.filter (fun x => x.id != id) }

/-- `f` run with the stream numbered `id` as the executing one. -/
def State.onHart (s : State) (id : Nat) (f : State → State) : State :=
  let p := s.picked
  { (f (s.focus id)).focus s.cur.id with picked := p }

/-- A free choice (log entry 6), and the counter stepped past it. -/
def State.choose (s : State) (bound : Nat) : Nat × State :=
  (Config.freeChoice s.fresh % max bound 1, { s with fresh := s.fresh + 1 })

/-- A new identifier. -/
def State.newId (s : State) : Nat × State := (s.nextId, { s with nextId := s.nextId + 1 })

/-- A message leaves the package. -/
def State.send (s : State) (o : Output) : State := { s with out := s.out ++ [o] }

/-- The link between two packages is up (R244). -/
def State.linkOk (s : State) (a b : Nat) : Bool :=
  if a = s.pkg.toNat then (s.peer b).linkUp else if b = s.pkg.toNat then (s.peer a).linkUp
  else !s.downLinks.any (fun l => l == (a, b) || l == (b, a))
/-- The package through whose crossbar a detour to `p` leads: the lowest-numbered one whose links to both ends are up (R244). -/
def State.detourOf (s : State) (p : Nat) : Option Nat :=
  (List.range (s.podn.toNat + 1)).find? (fun v => v != s.pkg.toNat && v != p && s.linkOk s.pkg.toNat v && s.linkOk v p)
/-- A request on the fabric, asked once (R191, R244). Where the direct link is down, its direct attempt has failed. -/
def State.request (s : State) (peer : Nat) (what : FabWhat) (who : FabBy := .other) : State :=
  if s.fabric.any (fun r => r.peer == peer && r.what == what) then s
  else
    let up := s.linkOk s.pkg.toNat peer
    { s with nextId := s.nextId + 1
             fabric := s.fabric ++ [{ id := s.nextId, peer := peer, what := what, failed := if up then 0 else 1,
                                      via := if up then none else s.detourOf peer, sentAt := s.clock, who := who }] }
/-- A request has its answer. -/
def State.answered (s : State) (peer : Nat) (what : FabWhat) : State :=
  { s with fabric := s.fabric.filter (fun r => !(r.peer == peer && r.what == what)) }

/-! ### The records of the error log (R335, R341) -/

/-- A site by the storage concerned: a copy of a word, wherever it lies, by its physical word. -/
def normSite : ErrSite → ErrSite
  | .word pw | .llc pw => .word { pw with off := pw.off / 4 * 4 }
  | .copy _ k => .word { k.pw with off := k.pw.off / 4 * 4 }
  | .scratch g off => .scratch g (off / 4 * 4)
  | e => e
/-- The index of the newest record of a site; a free value where the log has none (log entry 24). -/
def State.recordOf (s : State) (e : ErrSite) : Word :=
  match s.records.find? (fun r => r.1 == normSite e) with
  | some r => r.2
  | none => BitVec.ofNat 32 (Config.freeChoice s.fresh)
/-- A site and the index of its newest record. -/
def State.noteRecord (s : State) (e : ErrSite) (n : Word) : State :=
  { s with records := (normSite e, n) :: s.records.filter (fun r => !(r.1 == normSite e)) }
/-- Class 11 for a site. -/
def State.badCause (s : State) (e : ErrSite) : Cause := { cls := 11, detail := (s.recordOf e).zeroExtend 64 }

/-! ### Events (R278, R353) -/

/-- An event on its way to the arbiter (R279). -/
def State.raise (s : State) (e : Event) (hart : Option Nat := none) : State :=
  { s with fe := { s.fe with raised := s.fe.raised ++ [{ at_ := s.clock, hart := hart, e := e }] } }

/-- A machine event of R353 that no launch concerns. -/
def machineEvent (code : Nat) (detail : Dword) : Event :=
  { type := 4, queue := 0xFF, node := 0xFFFF, kseq := 0, code := BitVec.ofNat 32 code, handle := 0, detail := detail }

/-- An event of a launch. -/
def State.launchEvent (s : State) (l : Nat) (type : Nat) (code : Word) (detail : Dword) : Event :=
  let x := s.launch l
  { type := type, queue := x.queue, node := x.node, kseq := x.kseq, code := code, handle := x.handle, detail := detail }

/-! ### Code addresses (R33) -/

/-- The fetch line address of a code address. -/
def lineAddr (pc : Dword) : Dword := pc &&& ~~~ 63#64
/-- The slot of a code address. -/
def slotOf (pc : Dword) : Nat := pc.toNat % 8
/-- The code address of the next slot: slot 4 is followed by slot 0 of the next line (R32). -/
def nextPc (pc : Dword) : Dword := if slotOf pc ≥ 4 then lineAddr pc + 64 else pc + 1

/-! ### Completing an instruction -/

/-- An issued instruction is counted, its halting skid with it (R32, R333). -/
def Hart.counted (h : Hart) (n : Nat) : Hart :=
  { h with
    c := { h.c with issued := h.c.issued + n, replay := none, arriving := false, wait := none }
    sch := { h.sch with skid := h.sch.skid.map (fun k => k - n) }
    t := if h.sch.skid.isSome
      then { h.t with tskid := putBits h.t.tskid 8 5 (min 16 (getBits h.t.tskid 8 5 + n)) } else h.t }

/-- The instruction ends and the next slot follows. -/
def retire (s : State) : Out :=
  .next { s with cur := { s.cur.counted 1 with c := { (s.cur.counted 1).c with pc := nextPc s.cur.c.pc } }, picked := false }

/-- The instruction ends and control goes to `t`, to be checked at its arrival (R34). -/
def transfer (t : Dword) (s : State) : Out :=
  .next { s with
    cur := { s.cur.counted 1 with c := { (s.cur.counted 1).c with pc := t, arriving := true } }, picked := false }

/-- The instruction waits at issue; nothing has happened (R40, R284). -/
def stall (s : State) : Out := .next { s with picked := false }

/-- The instruction waits and keeps the clock of its start (R227). -/
def stallFrom (i : Instr) (s : State) : Out :=
  let w := match s.cur.c.wait with
    | some w => { w with seen := s.now }
    | none => { i := i, start := s.now, seen := s.now }
  .next { s with cur := { s.cur with c := { s.cur.c with wait := some w } }, picked := false }

/-! ### Trap state (R332) -/

def tsInh (t : Dword) : Bool := bit t 18
def tsLead (t : Dword) : Bool := bit t 19
def tsPpriv (t : Dword) : Bool := bit t 17
def tsClass (t : Dword) : Nat := getBits t 0 4
def tsPend (t : Dword) : Nat := getBits t 24 16
def tskHalted (t : Dword) : Bool := bit t 0

/-- TSTAT with bit `c` of PEND set or cleared. -/
def setPend (t : Dword) (c : Nat) (b : Bool) : Dword := putBits t (24 + c) 1 (bnat b)

/-- The lowest pending class, if any. -/
def lowestPend (t : Dword) : Option Nat := (List.range 16).find? (fun c => bit t (24 + c))

/-- The faulted lanes of a cause as a mask. -/
def faultMask (fs : List LaneFault) : Word := maskOf (fun l => fs.any (fun f => f.lane == l))
/-- LKIND of R335. -/
def faultKinds (fs : List LaneFault) : BitVec 128 :=
  BitVec.ofNat 128 (fs.foldl (fun acc f => if f.lane < 32 then acc + f.kind % 16 * 16 ^ f.lane else acc) 0)
/-- The lowest refused address. -/
def lowestVa (fs : List LaneFault) : Dword :=
  match fs with
  | [] => 0
  | f :: rest => rest.foldl (fun acc g => if g.va.toNat < acc.toNat then g.va else acc) f.va

/-- The side-buffer entry of a trap raised at `pc` by the form of class `icls` and function `fn` (R335). -/
def sideOf (c : Cause) (pc : Dword) (icls fn : Nat) : Side :=
  { vaddr := c.va, lanes := faultMask c.lanes, cls := BitVec.ofNat 4 c.cls, pair := c.second,
    reason := BitVec.ofNat 8 c.reason, kind := BitVec.ofNat 4 c.kind, fn := BitVec.ofNat 6 fn,
    icls := BitVec.ofNat 4 icls, lkind := faultKinds c.lanes, pc := pc, detail := c.detail }

/-- The eight 64-bit words of a side-buffer entry (R335). -/
def Side.word (x : Side) (n : Nat) : Dword :=
  match n with
  | 0 => x.vaddr
  | 1 => BitVec.ofNat 64 (x.lanes.toNat + (x.cls.toNat + bnat x.pair * 16) * 2 ^ 32 + x.reason.toNat * 2 ^ 40
      + x.kind.toNat * 2 ^ 48 + x.fn.toNat * 2 ^ 56)
  | 2 => BitVec.ofNat 64 x.icls.toNat
  | 3 => x.lkind.extractLsb' 0 64
  | 4 => x.lkind.extractLsb' 64 64
  | 5 => x.pc
  | 6 => x.detail
  | _ => 0

/-- The four 64-bit words of a store-fault record (R336). -/
def SfRec.words (r : SfRec) : List Dword :=
  [r.pc, r.va,
   BitVec.ofNat 64 (r.lanes.toNat + r.kind.toNat * 2 ^ 32 + r.fn.toNat * 2 ^ 40 + r.icls.toNat * 2 ^ 48
     + r.slot.toNat * 2 ^ 56),
   BitVec.ofNat 64 (r.issued.toNat + 0x80 * 2 ^ 56)]

/-! ### Retirement and the spawn-tree counter (R261, R295) -/

/-- The spawn-tree counter of a launch falls by `n`. -/
def State.uncount (s : State) (l n : Nat) : State :=
  let x := s.launch l
  s.setLaunch l { x with counter := x.counter - n }

/-- The live warps of a workgroup. -/
def State.warpsOf (s : State) (g : Nat) : List Hart :=
  s.allHarts.filter (fun h => h.role == .warp && h.live && h.pl.group == g)

/-- A stream stops being live. -/
def Hart.dead (h : Hart) : Hart :=
  { h with live := false, pl := { h.pl with region := none }
           c := { h.c with wait := none, arrivedBar := false, arrivedGang := false, hold := false }
           sch := { h.sch with skid := none } }

/-- Every resident stream of a workgroup leaves the halt (R334). -/
def State.lift (s : State) (g : Nat) : State :=
  let x := s.group g
  let s := s.setGroup g { x with halt := none }
  s.mapHarts (fun h =>
    if h.role == .warp && h.pl.group == g then
      { h with t := { h.t with tskid := putBits h.t.tskid 0 1 0 }, sch := { h.sch with skid := none } }
    else h)

/-- Class 9 for the waiting warp with the lowest slot when a retirement leaves the barrier's count unreachable (R296):
the warps of `g` that wait at BAR with a non-zero count and can no longer be joined by enough others. -/
def State.barrierStuck (s : State) (g : Nat) : Option Nat :=
  match (s.group g).bcount with
  | none => none
  | some n =>
    let live := s.warpsOf g
    let waiting := live.filter (fun h => h.c.arrivedBar)
    if n = 0 ∨ waiting.isEmpty ∨ live.length ≥ n then none
    else (waiting.foldl (fun (acc : Option Hart) h =>
      match acc with
      | none => some h
      | some a => if h.pl.slot < a.pl.slot then some h else acc) none).map (fun h => h.id)

/-! ### Halting and traps (R330 to R334) -/

/-- A stream that stays where it waits when it is halted or saved: one that has arrived at a barrier (R298), has asked to be
saved (R358), has posted an event that is not yet accepted (R362), or has published entries of its ring (R241). -/
def keepsWait (h : Hart) : Bool :=
  h.c.arrivedBar || h.c.arrivedGang || (match h.c.wait with
    | some { i := .swapb _, .. } => true
    | some { i := .evpost _, .. } => true
    | some { i := .lst _, .. } => true
    | some { i := .latom _, .. } => true
    | _ => false)

/-- The oldest failure that the warp may take: a transfer's only after its counter has reported it (R231). -/
def Accesses.nextFail (m : Accesses) : Option HeldFail :=
  m.fails.find? (fun f => match f.op with
    | none => true
    | some id => !(m.fb.any (fun o => o.id == id)))

/-- The lowest pending class that can be taken: class 10 only once a failure that it stands for has been reported. -/
def pendClass (h : Hart) : Option Nat :=
  (List.range 16).find? (fun c => bit h.t.tstat (24 + c) && (c != 10 || h.m.fails.isEmpty || h.m.nextFail.isSome))
/-- A trap is pending that the warp takes before it issues again (R334). -/
def trapDue (h : Hart) : Bool := !tsInh h.t.tstat && (pendClass h).isSome

/-- One sibling meets the halt: it stops after a free number of instructions up to 16 since the lead's trapping instruction issued,
`done` of which it has issued (R333, log entry 18). A stream that waits, or has a trap to take first (R334), stops at once. -/
def haltOne (origin n done : Nat) (h : Hart) : Hart :=
  let left := if h.c.wait.isSome || h.c.arrivedBar || h.c.arrivedGang || h.c.napEnd.isSome || h.sch.skid == some 0 || trapDue h
    then 0 else n - done
  { h with
    t := { h.t with tskid := BitVec.ofNat 64 (origin % 32 * 2 ^ 16 + min done 16 * 2 ^ 8 + bnat (left == 0)) }
    c := { h.c with napEnd := none, wait := if keepsWait h then h.c.wait else none }
    sch := { h.sch with skid := some left } }

/-- The instructions that a sibling has issued since those of a list. -/
def issuedSince (since : List (Nat × Nat)) (h : Hart) : Nat :=
  match since.find? (fun x => x.1 == h.id) with
  | some x => h.c.issued - x.2
  | none => 0

/-- Halt(g, w) with the executing warp as lead (R333): each sibling has a skid of its own. `since` is what the siblings had issued
when the trapping instruction did, where that was before now. -/
def State.haltGroup (s : State) (since : List (Nat × Nat) := []) : State :=
  let g := s.cur.pl.group
  let s1 := s.setGroup g { s.group g with halt := some s.cur.id }
  { s1 with
    fresh := s.fresh + s.harts.length
    harts := ((List.range s.harts.length).zip s.harts).map (fun x =>
      if x.2.role == .warp && x.2.live && x.2.pl.group == g
      then haltOne s.cur.pl.slot (Config.freeChoice (s.fresh + x.1) % 17) (issuedSince since x.2) x.2 else x.2) }

/-- The code of class `c` events (R353). -/
def endCode (c : Nat) : Word := BitVec.ofNat 32 (0x80000000 + c)

/-- Reservations of a workgroup that ends: POSTED entries are withdrawn (R147). -/
def State.withdraw (s : State) (g : Nat) : State :=
  { s with clusters := s.clusters.map (fun p =>
      (p.1, { p.2 with table := p.2.table.map (fun e =>
        if e.st == .posted && e.group == g then { Entry.zero with gen := (e.gen + 1) % 256 } else e) })) }

/-- The fetch lines that a gang holds are held no more (R302). -/
def State.unholdGang (s : State) (g : Nat) : State :=
  { s with dies := s.dies.map (fun p => (p.1, { p.2 with
      icache := p.2.icache.map (fun l => { l with held := l.held.filter (fun x => x != g) })
      ahead := p.2.ahead.map (fun l => { l with held := l.held.filter (fun x => x != g) }) })) }

/-- Every workgroup of a gang has ended. -/
def State.gangOver (s : State) (g : Nat) : Bool := (s.gang g).groups.all (fun x => (s.group x).phase == .ended)

/-- What the end of workgroup `g` releases where it ends its gang (R302). -/
def State.gangSettled (s : State) (g : Nat) : State :=
  let k := (s.group g).gang
  if (s.group g).pinned && s.gangOver k then s.unholdGang k else s

/-- A workgroup ends (R357): its warps retire, its records are discarded, its reservations withdrawn and its endpoints
unbound. Its commands and issued accesses go on (R234). -/
def State.endGroup (s : State) (g : Nat) : State :=
  let n := (s.warpsOf g).length
  let x := s.group g
  let s := s.uncount x.launch n
  let s := s.mapHarts (fun h =>
    if h.role == .warp && h.pl.group == g then
      { h.dead with m := { h.m with sfrecs := [], fails := [] } } else h)
  let s := s.withdraw g
  (s.setGroup g { s.group g with
    phase := .ended, halt := none, bcount := none, posts := [], epc := Vector.replicate 4 0 }).gangSettled g

/-- The machine event of a workgroup that is ended in error (R353, R357). -/
def State.endEvent (s : State) (cls : Nat) (detail : Dword) : State :=
  s.raise (s.launchEvent (s.group s.cur.pl.group).launch 4 (endCode cls) detail)

/-- The executing stream's workgroup ends in error with class `c`, as WGEND err does (R330, R357). -/
def State.endErr (s : State) (c : Nat) (detail : Dword) : State :=
  { (s.endEvent c detail).endGroup s.cur.pl.group with picked := false }

/-- ReturnAddress(c) (R331). -/
def returnAddress (c : Nat) (pc : Dword) : Dword := if c = 12 ∨ c = 13 then nextPc pc else pc

/-- The executing warp enters class `c` (the end of R330). -/
def State.enterTrap (s : State) (c : Nat) (since : List (Nat × Nat) := []) : State :=
  let s := s.haltGroup since
  let h := s.cur
  let t := h.t
  let ts := putBits (setPend t.tstat c false) 0 24 0
  let ts := BitVec.ofNat 64 (ts.toNat + c % 16 + t.side.reason.toNat * 16 + t.side.kind.toNat * 2 ^ 12
    + bnat h.c.priv * 2 ^ 17 + 2 ^ 18 + 2 ^ 19 + bnat t.side.pair * 2 ^ 20)
  { s with
    cur := { h with
      t := { t with tpc := returnAddress c h.c.pc, tstat := ts,
                    undo := some { tpc := t.tpc, tstat := t.tstat, pc := h.c.pc, priv := h.c.priv, replay := h.c.replay,
                                   clock := s.now, issued := h.c.issued } }
      c := { h.c with pc := ((s.group h.pl.group).hbase &&& ~~~ 4095#64) + BitVec.ofNat 64 (256 * c), priv := true,
                      arriving := false, wait := none, napEnd := none, replay := none } }
    picked := false }

/-- The stopping of a Bowler stream (R164, R166); `opnd` is OPND of BTR0. -/
def State.bowlerStop (s : State) (c : Cause) (opnd : Nat) : State :=
  let k := clusterOf s.cur.pl.core
  let x := s.cluster k
  let btr0 := BitVec.ofNat 64 (c.cls % 16 + (if c.cls = 0 ∨ c.cls = 10 then c.reason % 256 else 0) * 256
    + opnd % 8 * 2 ^ 16)
  let s := s.setCluster k { x with btr0 := btr0, btr1 := s.cur.c.pc, btr2 := c.va }
  let s := s.raise (s.launchEvent s.cur.pl.launch 3 (BitVec.ofNat 32 c.cls) (BitVec.ofNat 64 k))
  { s with cur := { s.cur with bow := { s.cur.bow with stopped := true } }, picked := false }

/-- A warp of a halted workgroup records a trap of class `c` as pending and stops (R330). -/
def pendTrap (c : Nat) (h : Hart) : Hart :=
  { h with
    t := { h.t with tstat := setPend h.t.tstat c true, tskid := putBits h.t.tskid 0 1 1 }
    c := { h.c with wait := none }
    sch := { h.sch with skid := some 0 } }

/-- The lead that the executing warp's trap displaces: it led from this core clock on, has issued nothing since, and has the
higher wave slot (R330, R333). -/
def State.displaced (s : State) : Option (Hart × Undo) :=
  match (s.group s.cur.pl.group).halt with
  | none => none
  | some id => match s.harts.find? (fun h => h.id == id) with
    | none => none
    | some h => match h.t.undo with
      | none => none
      | some u => if u.clock = s.now ∧ u.issued = h.c.issued ∧ s.cur.pl.slot < h.pl.slot ∧ tsLead h.t.tstat then some (h, u)
        else none

/-- A displaced lead as it was, with its trap pending: it stops before the instruction that trapped. -/
def unlead (slot : Nat) (u : Undo) (h : Hart) : Hart :=
  pendTrap (tsClass h.t.tstat) { h with
    t := { h.t with tpc := u.tpc, tstat := u.tstat, tskid := BitVec.ofNat 64 (slot % 32 * 2 ^ 16), undo := none }
    c := { h.c with pc := u.pc, priv := u.priv, replay := u.replay } }

/-- The executing warp is being stopped by a save (R316). -/
def State.departing (s : State) : Bool :=
  (s.group s.cur.pl.group).phase == .saving || (s.gang (s.group s.cur.pl.group).gang).stopping

/-- Class `c` in the order of the halt arbiter (R330, R333): entered, once `taken` has happened, where the workgroup is not halted
or this warp displaces its lead; else pending. That of a warp which a save stops is pending too, for the resumption (R319). -/
def State.trapInOrder (s : State) (c : Nat) (since : List (Nat × Nat)) (taken : State → State) : State :=
  let h := s.cur
  if s.departing then
    { s with cur := { h with t := { h.t with tstat := setPend h.t.tstat c true }, c := { h.c with wait := none } }, picked := false }
  else match s.displaced with
    | some (l, u) =>
      (taken { s with harts := s.harts.map (fun (x : Hart) => if x.id = l.id then unlead h.pl.slot u x else x) }).enterTrap c since
    | none =>
      if (s.group h.pl.group).halt.isSome then { s with cur := pendTrap c h, picked := false }
      else (taken s).enterTrap c since

/-- Trap (R330) for the executing stream, with the side-buffer entry already written for a warp. -/
def State.trapEntered (s : State) (c : Cause) : State :=
  if tsInh s.cur.t.tstat then s.endErr c.cls s.cur.c.pc else s.trapInOrder c.cls c.since id

/-- Trap(c) raised by the executing stream at the form of class `icls` and function `fn`: a warp enters its handler, a
Bowler stream stops (R164, R330). -/
def State.takeTrap (s : State) (c : Cause) (icls fn : Nat) (opnd : Nat := 6) : State :=
  match s.cur.role with
  | .bowler => s.bowlerStop c opnd
  | .warp =>
    let s := { s with cur := { s.cur with t := { s.cur.t with side := sideOf c s.cur.c.pc icls fn } } }
    s.trapEntered c

/-- The outcome of an instruction that traps. -/
def trapOut (c : Cause) (icls fn : Nat) (s : State) (opnd : Nat := 6) : Out := .next (s.takeTrap c icls fn opnd)

/-- A failure that may be taken, while the warp is in its handler, is pending (R231). -/
def Hart.pendFails (h : Hart) : Hart :=
  if tsInh h.t.tstat && h.m.nextFail.isSome then { h with t := { h.t with tstat := setPend h.t.tstat 10 true } } else h

/-- Class 10 for a held failure (R231): entered, or pending where the workgroup is halted. -/
def State.failTrap (s : State) (f : HeldFail) : State :=
  let h := s.cur
  let cause : Cause := { cls := 10, reason := f.reason, kind := f.kind, va := f.va, detail := BitVec.ofNat 64 f.token }
  let h := { h with t := { h.t with side := sideOf cause h.c.pc 9 f.fn } }
  { s with cur := h }.trapInOrder 10 [] (fun s => s.mapAcc (fun m => { m with fails := m.fails.erase f }))

/-- Class 4 for the oldest store-fault record (R335, R337), entered or pending. -/
def State.recordTrap (s : State) (r : SfRec) : State :=
  let h := s.cur
  let side : Side := { vaddr := r.va, lanes := r.lanes, cls := 4, pair := false, reason := 0, kind := r.kind,
                       fn := r.fn, icls := r.icls, lkind := 0, pc := r.pc, detail := 0 }
  { s with cur := { h with t := { h.t with side := side } } }.trapEntered { cls := 4 }

/-- The trap that the executing warp takes at an instruction boundary instead of issuing, if any: its lowest pending class,
then class 4 for a record, then class 10 for a failure (R231, R331, R334, R337). -/
def State.boundaryTrap (s : State) : Option State :=
  let h := s.cur
  match h.role with
  | .bowler => none
  | .warp =>
    if tsInh h.t.tstat then none
    else match (if (s.group h.pl.group).halt.isSome && s.displaced.isNone then none else pendClass h) with
      | some c => match (if c = 10 then h.m.nextFail else none) with
        | some f => some (s.failTrap f)
        | none => some (s.trapInOrder c [] id)
      | none => match h.m.sfrecs with
        | r :: _ => some (s.recordTrap r)
        | [] => h.m.nextFail.map s.failTrap

/-- RFT (R355): the handler ends, the halt is lifted if this warp leads it, and the warp resumes at TPC. -/
def State.returnTrap (s : State) (full : Bool) : State :=
  let h := s.cur
  let t := h.t
  let replay := if tsClass t.tstat = 3 ∧ t.side.lanes ≠ 0 ∧ !full then some t.side.lanes else none
  let lead := (s.group h.pl.group).halt == some h.id
  let h := { h.counted 1 with
    t := { t with tstat := putBits (putBits t.tstat 18 1 0) 19 1 0, undo := none }
    c := { (h.counted 1).c with pc := t.tpc, priv := tsPpriv t.tstat, replay := replay } }
  let s := { s with cur := h, picked := false }
  if lead then s.lift h.pl.group else s

/-- The executing warp retires (R261, R295): it leaves the counter, and a halt that it leads is lifted (R334). -/
def State.retireWarp (s : State) : State :=
  let g := s.cur.pl.group
  let lead := (s.group g).halt == some s.cur.id
  let s := s.uncount s.cur.pl.launch 1
  let s := { s with cur := s.cur.dead, picked := false }
  let s := if lead then s.lift g else s
  if (s.warpsOf g).isEmpty then
    ((s.withdraw g).setGroup g { (s.withdraw g).group g with phase := .ended, epc := Vector.replicate 4 0 }).gangSettled g
  else s

end Sys2Proof.Machine
end

