-- ==== Sys2Proof/Machine/Flags.lean ====
section
/-!
DEFINITION. FLG and the rules of R91 to R93: which flags an instruction adds, and the class 6 trap of an enabled one.
-/

namespace Sys2Proof.Machine

/-- FLG with flags added (R91, R92). -/
def flgOr (flg : Dword) (fl : Flags) : Dword := flg ||| (fl.zeroExtend 64)
/-- Some flag of `fl` has its EN bit set (R93). -/
def flgTraps (flg : Dword) (fl : Flags) : Bool := ((flg.extractLsb' 8 8) &&& fl) != 0
/-- FLG as software writes it (R91). -/
def flgWrite (x : Dword) : Dword := x &&& 0xFFFF
/-- The executing stream's flags added. -/
def State.addFlags (s : State) (fl : Flags) : State := s.setFlg (flgOr s.cur.y.flg fl)
/-- The cause of an enabled flag (R93, R335). -/
def arithCause (fl : Flags) (second : Bool := false) : Cause :=
  { cls := 6, detail := fl.zeroExtend 64, second := second }

end Sys2Proof.Machine
end

