-- ==== Sys2Proof/Machine/Operands.lean ====
section
/-!
DEFINITION. The operand forms: which registers each instruction reads and writes and which tags it requires (R40, R89,
R106), the ILLEGAL reasons that need the machine (R58, reasons 4 to 6), and the checks at issue that every instruction
shares.
-/

namespace Sys2Proof.Machine

/-- CLASS and FN of an instruction (R35, R56). -/
def classFn (i : Instr) : Nat × Nat :=
  match encode i with
  | some w => (w.toNat / 2 ^ 92, w.toNat / 2 ^ 86 % 64)
  | none => (0, 0)

/-- A vector source: its register, its mode bit, the format codes accepted (none: raw, R89), and whether it is read
through Va, Vb or Vc (R61). -/
structure VSrc where
  r : Nat
  mode : Bool := false
  need : Option (List Nat) := none
  bank : Bool := true
  deriving DecidableEq, Repr

/-- The registers of an instruction: scalar sources with their modes, scalar destinations, vector sources and
destinations, predicates read and written. -/
structure Uses where
  ss : List (Nat × Bool) := []
  sd : List Nat := []
  vs : List VSrc := []
  vd : List Nat := []
  pr : List Nat := []
  pw : List Nat := []
  deriving DecidableEq, Repr

/-- The low seven bits of a wide field (R38). -/
def lowS (x : BitVec 10) : Nat := x.toNat % 128
/-- `n` consecutive numbers from `a` on. -/
def upFrom (a n : Nat) : List Nat := (List.range n).map (· + a)

/-- What the raw forms require (R106). -/
def rawNeed (ty : BitVec 4) : Option (List Nat) := if ty = 0 then none else some [ty.toNat]
/-- What the typed forms require (R106). -/
def tyNeed (ty : BitVec 4) : Option (List Nat) := some [ty.toNat]

/-- The second source of format V3: a vector, or a scalar when BS is 1 (R47). -/
def vbUse (f : V3) (need : Option (List Nat)) (u : Uses) : Uses :=
  if f.bs then { u with ss := u.ss ++ [(lowS f.vb, f.mb)] }
  else { u with vs := u.vs ++ [{ r := f.vb.toNat, mode := f.mb, need := need }] }

def useV1 (f : V3) (need : Option (List Nat)) : Uses :=
  { vs := [{ r := f.va.toNat, mode := f.ma, need := need }], vd := [f.vd.toNat] }
def useV2 (f : V3) (need : Option (List Nat)) : Uses := vbUse f need (useV1 f need)
def useV3 (f : V3) (need needC : Option (List Nat)) : Uses :=
  let u := useV2 f need
  { u with vs := u.vs ++ [{ r := f.vc.toNat, mode := f.mc, need := needC }] }
/-- A comparison writes a predicate and no vector. -/
def useCmp (f : V3) : Uses := { useV2 f (tyNeed f.ty) with vd := [], pw := [f.pp.toNat] }

def useS1 (f : S3) : Uses := { ss := [(f.sa.toNat, f.ma)], sd := [f.sd.toNat] }
def useS2 (f : S3) : Uses := { ss := [(f.sa.toNat, f.ma), (f.sb.toNat, f.mb)], sd := [f.sd.toNat] }
def useSa (f : SI) : Uses := { ss := [(f.sa.toNat, f.ma)], sd := [f.sd.toNat] }

/-- The base and data of a load or store of format M. -/
def useBase (f : FM) : Uses := { ss := [(f.sa.toNat, f.ma)] }
def useIndex (f : FM) (u : Uses) : Uses := { u with vs := u.vs ++ [{ r := f.vx.toNat, mode := f.mx }] }
def useStoreV (f : FM) (n : Nat) (u : Uses) : Uses :=
  { u with vs := u.vs ++ (upFrom f.d.toNat n).map (fun r => { r := r, mode := f.md, need := rawNeed f.ty }) }

/-- The scalar operands of format A: base, X and Y. -/
def useA (f : FA) (x y : Bool) (u : Uses) : Uses :=
  { u with ss := u.ss ++ [(f.sa.toNat, f.ma)] ++ (if x then [(lowS f.x, f.mx)] else [])
      ++ (if y then [(lowS f.y, f.my)] else []) }
/-- The operands of a vector atomic. -/
def useVAtom (f : FA) : Uses :=
  { ss := [(f.sa.toNat, f.ma)], vd := [f.d.toNat],
    vs := [{ r := f.x.toNat, mode := f.mx }, { r := f.y.toNat, mode := f.my, need := tyNeed f.ty }] }

/-- The three scalar operands of format MX. -/
def useMX (f : FMX) : Uses := { ss := [(f.sa.toNat, f.ma), (f.sb.toNat, f.mb), (f.sc.toNat, f.mc)] }

/-- The registers of each instruction. Tile registers and descriptors carry no full/empty bit and do not appear. -/
def uses : Instr → Uses
  | .smov f | .sclz f | .spopc f => useS1 f
  | .smovi f => { sd := [f.sd.toNat] }
  | .smoviHi f => { ss := [(f.sd.toNat, false)], sd := [f.sd.toNat] }
  | .saddi f | .sbfx f => useSa f
  | .sbfi f => { ss := [(f.sa.toNat, f.ma), (f.sd.toNat, false)], sd := [f.sd.toNat] }
  | .sadd f | .ssub f | .smul f | .smulh f | .smulhn f | .sdiv f | .sdivn f | .srem f | .sand f | .sor f | .sxor f
  | .sandn f | .sshl f | .sshr f | .ssra f | .srot f | .smin f | .smax f | .sminn f | .smaxn f | .ssel f => useS2 f
  | .scmp f => { useS2 f with sd := [] }
  | .slea f => { ss := [(f.sa.toNat, f.ma), (f.sb.toNat, f.mb), (f.sc.toNat, f.mc)], sd := [f.sd.toNat] }
  | .swid f => { sd := [f.sd.toNat] }
  | .srr f => { sd := [f.sd.toNat] }
  | .srw f => { ss := [(f.sa.toNat, f.ma)] }
  | .sbool f =>
    { ss := if 1 ≤ f.sub.toNat ∧ f.sub.toNat ≤ 4 then [(f.sa.toNat, f.ma)] else [],
      sd := if f.sub.toNat = 5 then [f.sd.toNat] else [] }
  | .bri f => { ss := [(f.sa.toNat, f.ma)] }
  | .call f => { ss := if f.sub = 1 then [(f.sa.toNat, f.ma)] else [] }
  | .loop f => { ss := [(f.sa.toNat, f.ma)], sd := [f.sa.toNat] }
  | .msetEm f | .msetParked f => { pw := [f.pa.toNat] }
  | .park f | .brany f | .brall f => { pr := [f.pa.toNat] }
  | .lexit f => { pr := [f.pa.toNat] }
  | .enq f => { ss := [(f.sd.toNat, false), (f.sa.toNat, f.ma), (f.sb.toNat, f.mb)] }
  | .napc f => { ss := [(f.sa.toNat, f.ma)] }
  | .pfh f => { ss := [(f.sa.toNat, f.ma), (f.sb.toNat, f.mb)] }
  | .vmov f => if f.bs then { ss := [(lowS f.vb, f.mb)], vd := [f.vd.toNat] } else useV1 f (rawNeed f.ty)
  | .vmovi f => { vd := [f.vd.toNat] }
  | .vbcast f =>
    let u := useV1 f (rawNeed f.ty)
    if f.bs then { u with ss := [(lowS f.vb, f.mb)] } else u
  | .vlane f => { ss := if f.bs then [(lowS f.vb, f.mb)] else [], vd := [f.vd.toNat] }
  | .vadd f | .vsub f | .vmul f | .vmulh f | .vmulhn f | .vshl f | .vshr f | .vsra f | .vmin f | .vmax f | .vminn f
  | .vmaxn f | .vadds f | .vsubs f => useV2 f (tyNeed f.ty)
  | .vmad f => useV3 f (tyNeed f.ty) (tyNeed f.ty)
  | .vand f | .vor f | .vxor f | .vandn f => useV2 f (rawNeed f.ty)
  | .vabs f | .vclz f | .vpopc f => useV1 f (tyNeed f.ty)
  | .vcmp f | .fcmp f | .lcmp f => useCmp f
  | .vsel f => { useV2 f (rawNeed f.ty) with pr := [f.pp.toNat] }
  | .vbfx f => { vs := [{ r := f.va.toNat, mode := f.ma, need := tyNeed f.ty }], vd := [f.vd.toNat] }
  | .vbfi f => { vs := [{ r := f.va.toNat, mode := f.ma, need := tyNeed f.ty }, { r := f.vd.toNat, bank := false }],
                 vd := [f.vd.toNat] }
  | .vdot4 f => useV3 f (tyNeed f.ty) (some [if f.ty = 8 then 1 else 2])
  | .vpermb f => useV3 f (rawNeed f.ty) none
  | .vtag f => { vs := [{ r := f.va.toNat, mode := f.ma }], vd := [f.vd.toNat] }
  | .vtagrRead f => useV1 f none
  | .vtagrSet f => { useV1 f none with ss := [(lowS f.vb, f.mb)] }
  | .fadd f | .fsub f | .fmul f | .fmin f | .fmax f | .fdiv f => useV2 f (tyNeed f.ty)
  | .ffma f | .ffms f | .fnma f => useV3 f (tyNeed f.ty) (tyNeed f.ty)
  | .fabs f | .fneg f | .fclass f | .frnd f | .fsqrt f | .frcp f | .frsq f | .fexp2 f | .flog2 f | .fsin f | .fcos f
  | .ftanh f | .fsigm f => useV1 f (tyNeed f.ty)
  | .fdot2 f => useV3 f (tyNeed f.ty) (some [3])
  | .cvt f | .cvti f =>
    let u := useV1 f (some [f.sub.toNat % 16])
    if f.bs then { u with ss := [(lowS f.vb, f.mb)] } else u
  | .cvtf f => useV1 f (some [if f.ty = 3 then (if f.sub.toNat ≥ 64 then 2 else 1) else 3])
  | .lmul f | .ldiv f => useV2 f (tyNeed f.ty)
  | .lsqr f | .lsqrt f => useV1 f (tyNeed f.ty)
  | .lscale f =>
    let u := useV1 f (tyNeed f.ty)
    if f.bs then { u with ss := [(lowS f.vb, f.mb)] } else u
  | .lmaxs f => useV1 f (some [f.sub.toNat % 16])
  | .pack f => useV2 f (some [if f.ty = 10 then 1 else 10])
  | .unpack f => useV1 f (some [if f.ty = 1 then 10 else if f.sub.toNat ≥ 2 then 9 else 8])
  | .shfl f =>
    let u := useV1 f (rawNeed f.ty)
    if f.bs then { u with ss := [(lowS f.vb, f.mb)] }
    else if f.sub.toNat % 4 = 0 then { u with vs := u.vs ++ [{ r := f.vb.toNat, mode := f.mb }] } else u
  | .vote f => { pr := [f.va.toNat % 16], pw := [f.pp.toNat] }
  | .vred f | .vscan f => useV1 f (tyNeed f.ty)
  | .vrdl f => { vs := [{ r := f.va.toNat, mode := f.ma, need := rawNeed f.ty }], sd := [lowS f.vd],
                 ss := if f.bs then [(lowS f.vb, f.mb)] else [] }
  | .vwrl f => { ss := (if f.sub.toNat ≥ 32 then [(lowS f.va, f.ma)] else []) ++ [(lowS f.vb, f.mb)],
                 vd := [f.vd.toNat] }
  | .pcount f => { sd := [lowS f.vd], pr := [f.pp.toNat] }
  | .pmov f => { pr := [f.va.toNat % 16, f.vb.toNat % 16], pw := [f.pp.toNat] }
  | .pfroms f => { ss := [(lowS f.vb, f.mb)], pw := [f.pp.toNat] }
  | .ptos f => { sd := [lowS f.vd], pr := [f.pp.toNat] }
  | .dmask f => { vs := [{ r := f.va.toNat, mode := f.ma, need := some [2] }], ss := [(lowS f.vb, f.mb)],
                  pw := [f.pp.toNat] }
  | .vcmx f =>
    let u := useV1 f (tyNeed f.ty)
    if f.sub.toNat ≥ 64 then { u with vs := u.vs ++ [{ r := f.vb.toNat, mode := f.mb }] } else u
  | .vmatch f => { useV1 f none with pw := [f.pp.toNat] }
  | .sld f => { useBase f with sd := [lowS f.d] }
  | .sst f => { ss := [(f.sa.toNat, f.ma), (lowS f.d, f.md)] }
  | .vld f => { useBase f with vd := [f.d.toNat] }
  | .vst f => useStoreV f 1 (useBase f)
  | .vgld f => { useIndex f (useBase f) with vd := [f.d.toNat], pw := if f.sub.toNat ≥ 8 then [f.pp.toNat] else [] }
  | .vsct f => useStoreV f 1 (useIndex f (useBase f))
  | .lld f =>
    if f.sub.toNat ≥ 8 then { useBase f with sd := [lowS f.d] }
    else if f.sub.toNat % 2 = 1 then { useIndex f (useBase f) with vd := [f.d.toNat] }
    else { useBase f with vd := [f.d.toNat] }
  | .lst f =>
    if f.sub.toNat ≥ 8 then { ss := [(f.sa.toNat, f.ma), (lowS f.d, f.md)] }
    else if f.sub.toNat % 2 = 1 then useStoreV f 1 (useIndex f (useBase f))
    else useStoreV f 1 (useBase f)
  | .wld f => { useBase f with vd := upFrom f.d.toNat (2 ^ (f.sub.toNat % 4)) }
  | .tld f => { ss := [(f.sa.toNat, f.ma), (lowS f.vx, f.mx)], vd := upFrom f.d.toNat (2 ^ (f.sub.toNat % 4)) }
  | .tst f => useStoreV f (2 ^ (f.sub.toNat % 4)) { ss := [(f.sa.toNat, f.ma), (lowS f.vx, f.mx)] }
  | .spush f => { ss := (upFrom (lowS f.d) (f.sub.toNat % 8 + 1)).map (fun r => (r, f.md)) }
  | .spop f => { sd := upFrom (lowS f.d) (f.sub.toNat % 8 + 1) }
  | .vpush f => { vs := (upFrom f.d.toNat (f.sub.toNat % 8 + 1)).map (fun r => { r := r, mode := f.md }) }
  | .vpop f => { vd := upFrom f.d.toNat (f.sub.toNat % 8 + 1) }
  | .satom f => { useA f true false {} with sd := [lowS f.d] }
  | .scas f => { useA f true true {} with sd := [lowS f.d] }
  | .vatom f | .fatom f | .latom f => useVAtom f
  -- DESIGN CHOICE, log entry 67: R213 does not say whether the expected value's register must carry TY; it is read raw
  | .vcas f =>
    let u := useVAtom f
    { u with vs := u.vs ++ [{ r := f.d.toNat, need := none }] }
  | .waita f | .arrw f | .tkwait f => { useA f true true {} with sd := [lowS f.d] }
  | .tkreq f => { useA f false false {} with sd := [lowS f.d] }
  | .tkserve f => { useA f (f.aop == 1) false {} with sd := [lowS f.d] }
  | .cwb f | .cinv f | .cwbi f | .pref f => { ss := [(f.sa.toNat, f.ma), (lowS f.d, f.md)] }
  | .wrsync f => { ss := if f.sub = 1 then [(f.sa.toNat, f.ma)] else [], sd := [f.sd.toNat] }
  | .waitb f => { ss := [(f.sa.toNat, f.ma), (f.sb.toNat, f.mb)], sd := [f.sd.toNat] }
  | .cpy f | .cpy2d f | .cpysp f | .csrwk f | .poolfill f | .poolcopy f | .poolcmp f | .poolred f =>
    { useA f true true {} with sd := [lowS f.d] }
  | .xfer f | .xget f => { useA f true true {} with ss := (useA f true true {}).ss ++ [(lowS f.d, false)] }
  | .mpost f => { ss := [(lowS f.x, f.mx)], sd := [lowS f.d] }
  | .mtake f => { sd := [f.sa.toNat, f.sb.toNat] }
  | .mdone f | .mopa f | .mopb f | .mmag f | .mldc f | .mstf f | .mstl f => useMX f
  | .mprogRead f => { sd := [f.sa.toNat] }
  | .mprogSet f => { ss := [(f.sb.toNat, f.mb)] }
  | .mtagtRead f => { sd := [f.sa.toNat] }
  | .mtagtSet f => { ss := [(f.sb.toNat, f.mb)] }
  | .srrp f => { sd := [f.sd.toNat] }
  | .srwp f => { ss := [(f.sa.toNat, f.ma)] }
  | .purgev f | .xlatinv f | .evpost f => { ss := [(f.sa.toNat, f.ma), (f.sb.toNat, f.mb)] }
  | .sfqpop f => { ss := if f.sub = 1 then [(f.sa.toNat, f.ma)] else [], sd := upFrom f.sd.toNat 4 }
  | .siderd f => { ss := if f.sub = 1 then [(f.sa.toNat, f.ma)] else [], sd := [f.sd.toNat] }
  | .haltcHalt f | .haltcLift f => { sd := [f.sd.toNat] }
  | .haltcRetire f => { ss := [(f.sa.toNat, f.ma)], sd := [f.sd.toNat] }
  | _ => {}

/-- The forms that Bowler executes outside class 0xA (R57). -/
def bowlerForm (cf : Nat × Nat) : Bool :=
  match cf.1 with
  | 0 => cf.2 != 0x1F
  | 1 => cf.2 ≤ 6
  | 6 => cf.2 ≤ 1
  | 7 => cf.2 ≤ 1
  | 8 => cf.2 ≤ 1
  | 10 => true
  | 12 => cf.2 ≤ 1
  | _ => false

/-- The system registers that need supervisor privilege (R315). -/
def sysSuper (n : Nat) : Bool := n == 0x020 || n == 0x022 || (0x040 ≤ n && n ≤ 0x047)
/-- The system registers that Bowler reaches (R104). -/
def sysBowler (n : Nat) : Bool := n == 0x010 || n == 0x011 || n == 0x012 || n == 0x015 || n == 0x01A || n == 0x021

/-- The reason that SRR or SRW of register `n` earns from its executor (R104). -/
def sysReason (role : Role) (n : Nat) : Option Nat :=
  if sysSuper n then some 5
  else match role with
    | .warp => if n = 0x012 then some 6 else none
    | .bowler => if sysBowler n then none else some 6

/-- The guard of an instruction (R35). -/
def guardOfWord (i : Instr) : Guard :=
  match encode i with
  | some w => guardOf w
  | none => { gp := 0, gs := false }

/-- The lowest of the ILLEGAL reasons 4 to 6 that the instruction earns on this stream (R58). -/
def illegalHere (i : Instr) (s : State) : Option Nat :=
  let h := s.cur
  let u := uses i
  let cf := classFn i
  let overGrant := (u.vs.any (fun x => x.r ≥ h.pl.regs)) || u.vd.any (fun r => r ≥ h.pl.regs)
  if h.role == .warp && overGrant then some 4
  else if cf.1 == 12 && cf.2 ≥ 2
      && (h.role == .bowler || !h.c.priv || (cf.2 == 2 && !tsInh h.t.tstat)) then some 5
  else
    let sys := match i with
      | .srr f => sysReason h.role f.imm.toNat
      | .srw f => sysReason h.role f.imm.toNat
      | .srrp f => if f.imm = 0x012 then some 6 else none
      | .srwp f => if f.imm = 0x012 then some 6 else none
      | _ => none
    match sys with
    | some r => some r
    | none =>
      match h.role with
      | .warp => if cf.1 = 10 then some 6 else none
      | .bowler =>
        let g := guardOfWord i
        if !bowlerForm cf || g.gp != 0 || g.gs then some 6 else none

/-- The lowest ILLEGAL reason of an instruction: by its word (R58, reasons 2 and 3), then by its executor. -/
def illegal (i : Instr) (s : State) : Option Nat :=
  match reject? i with
  | some r => some r.code
  | none => illegalHere i s

/-- The returning accesses (R197). -/
def isReturning : Instr → Bool
  | .sld _ | .vld _ | .vgld _ | .lld _ | .wld _ | .tld _ | .spop _ | .vpop _ => true
  | _ => false

/-- A returning access whose destination is scalar (R198). -/
def scalarReturning : Instr → Bool
  | .sld _ | .spop _ => true
  | .lld f => f.sub.toNat ≥ 8
  | _ => false

/-- The ordering and scope of a load (R210). -/
def loadOrd : Instr → Order × Scope
  | .sld f | .vld f | .vgld f | .lld f | .wld f | .tld f => (f.ord, f.sc)
  | _ => (.rlx, .core)
/-- ACQ and REL of an ordering field (R45). -/
def isAcq (o : Order) : Bool := o == .acq || o == .acqrel
def isRel (o : Order) : Bool := o == .rel || o == .acqrel
/-- The atomics of class 0x7, which may wait at survivable scope for their deltas (R173, R194). -/
def isAtomic : Instr → Bool
  | .satom _ | .scas _ | .vatom _ | .vcas _ | .fatom _ => true
  | _ => false

/-- The predicate of VGLD with nf (R205). -/
def loadNf : Instr → Option Nat
  | .vgld f => if f.sub.toNat ≥ 8 then some f.pp.toNat else none
  | _ => none
/-- The instruction reads or writes a predicate. -/
def usesPred (i : Instr) (p : Nat) : Bool :=
  p != 0 && ((guardOfWord i).gp.toNat == p || (uses i).pr.contains p || (uses i).pw.contains p)

/-- What holds an instruction back: the limits of R198; for LLD, which reads at issue, an older acquire (R171, R176); the
predicate of an older VGLD with nf, which its commit writes (R205); and a survivable atomic that is not complete (R173, R194). -/
def loadWait (i : Instr) (h : Hart) : Bool :=
  h.m.stores.any (fun st => isAtomic st.i)
    || h.m.returning.any (fun r => (loadNf r.i).any (usesPred i))
    || (if isReturning i then
      (h.m.returning.filter (fun r => !r.confirmed)).length > 15
        || (match i with
          | .lld _ => h.m.returning.any (fun r => !r.confirmed && isAcq (loadOrd r.i).1)
          | _ => false)
      else h.m.returning.any (fun r => !r.confirmed || scalarReturning r.i))

/-- A source in trap mode is empty (R40). -/
def emptyTrap (u : Uses) (r : Regs) : Bool :=
  u.ss.any (fun x => x.2 && !r.fullS x.1) || u.vs.any (fun x => x.mode && !r.fullV x.r)
/-- A source in block mode or a destination is empty (R40). -/
def blockWait (u : Uses) (r : Regs) : Bool :=
  u.ss.any (fun x => !x.2 && !r.fullS x.1) || u.sd.any (fun n => !r.fullS n) || u.vs.any (fun x => !x.mode && !r.fullV x.r)
    || u.vd.any (fun n => !r.fullV n)
/-- A source or destination is empty (R40). -/
def emptyWait (u : Uses) (r : Regs) : Bool :=
  u.ss.any (fun x => !r.fullS x.1) || u.sd.any (fun n => !r.fullS n) || u.vs.any (fun x => !r.fullV x.r)
    || u.vd.any (fun n => !r.fullV n)

/-- The tag found and the tag required, as DETAIL of class 1 gives them (R335). -/
def tagDetail (found : BitVec 12) (need : Nat) : Dword := BitVec.ofNat 64 (found.toNat + need * 2 ^ 24)

/-- The trap of the first vector source that fails its check, in field order (R89, R90). -/
def sourceTrap (u : Uses) (s : State) : Option Cause :=
  let r := s.cur.r
  let one := fun (x : VSrc) =>
    let t := (r.getV x.r).tag
    if tagCode t = 15 then some (s.badCause (.vreg s.cur.id x.r))
    else match x.need with
      | none => none
      | some cs => if cs.contains (tagCode t) then none else some { cls := 1, detail := tagDetail t (cs.headD 0) : Cause }
  match u.ss.find? (fun x => r.sbad.contains x.1) with
  | some x => some (s.badCause (.sreg s.cur.id x.1))
  | none => u.vs.findSome? one

/-- Every older returning access of the stream is confirmed (R198). -/
def settled (h : Hart) : Bool := h.m.returning.all (fun r => r.confirmed)

/-- A trap of the instruction at issue: it waits while an older returning access may still fault (R198, R199). -/
def trapSettled (c : Cause) (icls fn : Nat) (s : State) (opnd : Nat := 6) : Out :=
  if settled s.cur then trapOut c icls fn s opnd else stall s

/-- The checks of R58, R198, R37, R40 and R89 in that order, then the effect `k`. `always` is for JOIN, which runs
whatever its guard (R301). DESIGN CHOICE, log entry 68: an instruction with both an empty source in trap mode and an empty
register that it would wait for traps at once. -/
def issueWith (always : Bool) (i : Instr) (g : Guard) (s : State) (k : State → Out) : Out :=
  let cf := classFn i
  let u := uses i
  match illegal i s with
  | some r => trapSettled { cls := 0, reason := r } cf.1 cf.2 s
  | none =>
    if loadWait i s.cur then stall s
    else if !always && laneMask s.cur g == 0 then retire s
    else if emptyTrap u s.cur.r then trapSettled { cls := 2 } cf.1 cf.2 s
    else if emptyWait u s.cur.r then stall s
    else match sourceTrap u s with
      | some c => trapSettled c cf.1 cf.2 s
      | none => k s

/-- The shared checks of an instruction with guard `g`. -/
def issue (i : Instr) (g : Guard) (s : State) (k : State → Out) : Out := issueWith false i g s k

/-- A trap of instruction `i` itself. -/
def trapAt (i : Instr) (c : Cause) (s : State) (opnd : Nat := 6) : Out :=
  trapOut c (classFn i).1 (classFn i).2 s opnd

end Sys2Proof.Machine
end

