-- ==== Sys2Proof/Machine/SysReg.lean ====
section
/-!
DEFINITION. The system registers of R315: what a read of each gives and what a write of each leaves.
-/

namespace Sys2Proof.Machine

/-- PLC of a stream (R19, R20); a Bowler stream reads CORE and SLOT as 0. -/
def plcOf (s : State) (h : Hart) : Dword :=
  BitVec.ofNat 64 (s.podn.toNat * 2 ^ 36 + s.pkg.toNat * 2 ^ 32 + h.pl.core % 512 * 2 ^ 15 + h.pl.slot % 32 * 2 ^ 10)

/-- The hold of a die (R291): some resident warp of a pinned gang on it holds. -/
def State.dieHold (s : State) (d : Nat) : Bool :=
  s.allHarts.any (fun h => h.role == .warp && h.live && h.c.hold && dieOf h.pl.core == d && (s.group h.pl.group).pinned
    && (s.group h.pl.group).phase == .resident)

/-- WREF of a die (R178). PHASE counts to the nominal start, or is 0 while a window is due (log entry 4). -/
def wrefOf (s : State) (d : Nat) : Dword :=
  let x := s.die d
  BitVec.ofNat 64 ((x.nominal - s.clock) % 2 ^ 16 * 2 ^ 40 + x.bank % 16 * 2 ^ 36 + x.order % 4 * 2 ^ 34
    + x.window % 2 ^ 16 * 2 ^ 16 + x.period % 2 ^ 16)

/-- WRDEF of a stream (R291). DEFER is that of the window in progress, or what the next has been deferred by so far. -/
def wrdefOf (s : State) (h : Hart) : Dword :=
  let x := s.die (dieOf h.pl.core)
  BitVec.ofNat 64 ((if x.openUntil.isSome then x.deferClocks.toNat else (s.clock - x.nominal) % 2 ^ 16) * 2 ^ 32 + x.forced.toNat * 2 ^ 16 + bnat h.c.hold)

/-- CSTAT (R305). -/
def cstatOf (s : State) (h : Hart) : Dword := BitVec.ofNat 64 ((s.asidOf h).toNat * 2 ^ 32 + bnat h.c.priv)

/-- EPH of a workgroup (R245). -/
def ephOf (s : State) (g : Group) : Dword :=
  BitVec.ofNat 64 (s.pkg.toNat * 2 ^ 44 + g.core % 512 * 2 ^ 35 + g.slot % 32 * 2 ^ 30)

/-- System register `n` as the executing stream reads it (R315). -/
def State.sysGet (s : State) (n : Nat) : Dword :=
  let h := s.cur
  let g := s.myGroup
  if n = 0x010 then plcOf s h
  else if n = 0x011 then h.y.flg
  else if n = 0x012 then h.bow.eflg
  else if n = 0x013 then h.y.slim
  else if n = 0x014 then h.y.sptr
  else if n = 0x015 then wrefOf s (dieOf h.pl.core)
  else if n = 0x016 then h.y.wswin
  else if n = 0x017 then h.y.ppoll
  else if n = 0x018 then (s.core h.pl.core).slipc
  else if n = 0x019 then wrdefOf s h
  else if n = 0x01A then BitVec.ofNat 64 s.now
  else if n = 0x020 then g.mctl
  else if n = 0x021 then cstatOf s h
  else if n = 0x022 then g.hbase
  else if 0x030 ≤ n ∧ n ≤ 0x033 then vget g.epw (n - 0x030) 0
  else if 0x034 ≤ n ∧ n ≤ 0x037 then vget g.epc (n - 0x034) 0
  else if n = 0x038 then ephOf s g
  else if n = 0x039 then g.cring
  else if n = 0x03A then g.crcons
  else if n = 0x040 then h.t.tpc
  else if n = 0x041 then h.t.tstat
  else if n = 0x042 then h.t.tskid
  else if n = 0x043 then h.t.tsfov
  else if 0x044 ≤ n ∧ n ≤ 0x047 then vget h.t.tscr (n - 0x044) 0
  else 0

/-- The bits that software may set in each register (R5, R315). -/
def slimMask : Dword := 0x01FFFFFFFFFFFC00
def epwMask : Dword := 0x81FFFFFFFFFFFF00
def epcMask : Dword := 0xFFFFFF800003FFF8
def cringMask : Dword := 0x00000F0FFFE3FFE0
/-- The fields of the registers that no SRW writes in part (R91, R153, R156, R166, R186, R201, R332): the others read as zero. -/
def flgFields : Dword := 0xFFFF
def wswinFields : Dword := 0x01FFFFFFC000000F
def rpMask : Dword := 0x8000000000F83F7F
def btr0Fields : Dword := 0x7FF0F
def tstatFields : Dword := 0x000000FFFF1EFFFF
def tskidFields : Dword := 0x1F1F01
/-- TSTAT: PEND and PPRIV are software's (R332). -/
def tstatMask : Dword := 0x000000FFFF020000

/-- Bits of `m` taken from `x`, the others from `old`. -/
def mergeBits (m old x : Dword) : Dword := (old &&& ~~~ m) ||| (x &&& m)

/-- The registers that SRW writes at user privilege (R315). A register that it does not write is left (R104). -/
def State.sysPutUser (s : State) (n : Nat) (x : Dword) : State :=
  let g := s.myGroup
  if n = 0x011 then s.setFlg (flgWrite x)
  else if n = 0x012 then s.mapCur (fun h => { h with bow := { h.bow with eflg := x &&& 0xFF } })
  else if n = 0x014 then s.mapCur (fun h => { h with y := { h.y with sptr := x } })
  else if n = 0x019 then
    s.mapCtl (fun c => { c with hold := bit x 0 && (s.group s.cur.pl.group).pinned })
  else if 0x030 ≤ n ∧ n ≤ 0x033 then s.setMyGroup { g with epw := vset g.epw (n - 0x030) (x &&& epwMask) }
  else if 0x034 ≤ n ∧ n ≤ 0x037 then s.setMyGroup { g with epc := vset g.epc (n - 0x034) (x &&& epcMask) }
  else if n = 0x039 then s.setMyGroup { g with cring := x &&& cringMask }
  else if n = 0x03A then s.setMyGroup { g with crcons := x }
  else s

/-- The registers that SRWP writes (R315), beside those that SRW writes (R356). -/
def State.sysPutSuper (s : State) (n : Nat) (x : Dword) : State :=
  let g := s.myGroup
  let t := s.cur.t
  if n = 0x013 then s.mapCur (fun h => { h with y := { h.y with slim := x &&& slimMask } })
  else if n = 0x017 then s.mapCur (fun h => { h with y := { h.y with ppoll := x &&& 0xFFFFFFFF } })
  else if n = 0x018 then s.setCore s.cur.pl.core { s.core s.cur.pl.core with slipc := x }
  else if n = 0x020 then s.setMyGroup { g with mctl := x &&& 1 }
  else if n = 0x022 then s.setMyGroup { g with hbase := x &&& ~~~ 4095#64 }
  else if n = 0x040 then s.mapCur (fun h => { h with t := { t with tpc := x } })
  else if n = 0x041 then s.mapCur (fun h => { h with t := { t with tstat := mergeBits tstatMask t.tstat x } })
  else if n = 0x042 then s
  else if n = 0x043 then s.mapCur (fun h => { h with t := { t with tsfov := x &&& 0xFFFFFFFF } })
  else if 0x044 ≤ n ∧ n ≤ 0x047 then s.mapCur (fun h => { h with t := { t with tscr := vset t.tscr (n - 0x044) x } })
  else s.sysPutUser n x

end Sys2Proof.Machine
end

