-- ==== Sys2Proof/Machine/LogNum.lean ====
section
/-!
DEFINITION. The logarithmic formats L8 and L16: the published tables (R78 to R80), decoding (R75, R76), linear values
(R77, R81), rounding in the log domain (R82) and from linear values (R83), stochastic rounding (R84, R85), and the
conversions of R86.
-/

namespace Sys2Proof.Machine

/-- T8 (R78). -/
def t8 : List Nat :=
  [32768, 34219, 35734, 37316, 38968, 40693, 42495, 44376, 46341, 48393, 50535, 52773, 55109, 57549, 60097, 62757]
/-- T64 (R79). -/
def t64 : List Nat :=
  [8388608, 8479954, 8572295, 8665641, 8760003, 8855394, 8951823, 9049301, 9147842, 9247455, 9348154, 9449948,
   9552851, 9656875, 9762032, 9868333, 9975792, 10084422, 10194234, 10305242, 10417458, 10530897, 10645571, 10761494,
   10878679, 10997140, 11116891, 11237946, 11360319, 11484025, 11609078, 11735492] ++
  [11863283, 11992466, 12123055, 12255067, 12388516, 12523418, 12659789, 12797645, 12937002, 13077877, 13220286,
   13364245, 13509772, 13656884, 13805598, 13955931, 14107901, 14261526, 14416824, 14573813, 14732511, 14892937,
   15055111, 15219050, 15384775, 15552304, 15721658, 15892855, 16065917, 16240863, 16417715, 16596492]
/-- C32 (R80). -/
def c32 : List Nat :=
  [8388608, 8391448, 8394288, 8397130, 8399972, 8402816, 8405660, 8408505, 8411352, 8414199, 8417047, 8419897, 8422747,
   8425598, 8428450, 8431303, 8434157, 8437012, 8439868, 8442725, 8445583, 8448442, 8451302, 8454163, 8457025, 8459887,
   8462751, 8465616, 8468482, 8471348, 8474216, 8477084]

/-- An L format: body width, exponent width and largest fraction width (R76). -/
structure LFmt where
  n : Nat
  e : Nat
  m : Nat
  deriving DecidableEq, Repr

def L8 : LFmt := { n := 7, e := 1, m := 4 }
def L16 : LFmt := { n := 15, e := 2, m := 11 }

/-- A decoded L element (R76). -/
inductive LVal where
  | zero
  | nar
  | real (neg : Bool) (lam : Int)
  deriving DecidableEq, Repr

/-- The run of bits equal to `v` in body `b`, from bit `k - 1` down. -/
def runLen (b : Nat) (v : Bool) : Nat → Nat
  | 0 => 0
  | k + 1 => if b.testBit k == v then runLen b v k + 1 else 0

/-- Λ of a non-zero body (R76). -/
def lamOf (L : LFmt) (b : Nat) : Int :=
  let top := b.testBit (L.n - 1)
  let run := runLen b top L.n
  let k : Int := if top then (run : Int) - 1 else -(run : Int)
  let w := L.n - run - 1
  let t := b % 2 ^ w
  k * (2 ^ (L.e + L.m) : Nat) + (t * 2 ^ (L.e + L.m) / 2 ^ w : Nat)

/-- Decode8 and Decode16 (R76). -/
def ldecode (L : LFmt) (c : Nat) : LVal :=
  let b := c % 2 ^ L.n
  let sg := c.testBit L.n
  if b = 0 then (if sg then .nar else .zero) else .real sg (lamOf L b)

/-- NaR (R75). -/
def LFmt.nar (L : LFmt) : Nat := 2 ^ L.n
/-- The all-ones body. -/
def LFmt.top (L : LFmt) : Nat := 2 ^ L.n - 1
/-- A code from its sign and body. -/
def LFmt.code (L : LFmt) (neg : Bool) (b : Nat) : Nat := (if neg then 2 ^ L.n else 0) + b

/-- ProdLin8 and ProdLin16: the linear magnitude as `m` times 2 to the `e` (R81). -/
def prodLin (L : LFmt) (lam : Int) : Nat × Int :=
  if L = L8 then
    (t8.getD (lam % 16).toNat 0, lam / 16 - 15)
  else
    let f := (lam % 2048).toNat
    let p := t64.getD (f / 32) 0 * c32.getD (f % 32) 0
    let m := p / 2 ^ 23
    let r := p % 2 ^ 23
    (if r > 2 ^ 22 ∨ (r = 2 ^ 22 ∧ m % 2 = 1) then m + 1 else m, lam / 2048 - 23)

/-- The block scale in units of the logarithm. -/
def scaleUnits (L : LFmt) (s : Int) : Int := s * (2 ^ L.m : Nat)

/-- The linear value of an element under scale `s` (R77). -/
def lvalue (L : LFmt) (s : Int) (c : Nat) : FVal :=
  match ldecode L c with
  | .zero => .fin false 0 0
  | .nar => .nan
  | .real n lam => let p := prodLin L (lam + scaleUnits L s); .fin n p.1 p.2

/-- The largest body for which `le` holds, where `le` holds for a lower run of bodies; 0 where it holds for none. -/
def largestBody (le : Nat → Bool) : Nat → Nat → Nat
  | 0, b => b
  | k + 1, b => largestBody le k (if le (b + 2 ^ k) then b + 2 ^ k else b)

/-- Encode8 and Encode16 of the exact logarithm `mu / d` (R82), the stochastic choice left open. -/
def lencode (L : LFmt) (neg : Bool) (mu : Int) (d : Nat) (s : Int) (rm : Nat) : Narrow :=
  let nu := mu - scaleUnits L s * d
  let lmax := lamOf L L.top
  let lmin := -lmax
  let lu := lmin - (lamOf L 2 - lmin) / 2
  if nu > lmax * d then .fixed (L.code neg L.top) (fLSAT ||| fIX)
  else if nu < lu * d then .fixed 0 (fLUNF ||| fIX)
  else if nu < lmin * d then .fixed (L.code neg 1) fIX
  else
    let b := largestBody (fun x => lamOf L x * d ≤ nu) L.n 0
    let lb := lamOf L b
    if lb * d = nu then .fixed (L.code neg b) 0
    else
      let h := b + 1
      let lh := lamOf L h
      if rm = 4 then
        .choice (L.code neg b) (L.code neg h) ((nu - lb * d) * 65536 / ((lh - lb) * d)).toNat fIX fIX
      else
        let up := if rm = 0 then 2 * nu > (lb + lh) * d || (2 * nu == (lb + lh) * d && h % 2 == 0)
          else if rm = 1 then false else if rm = 2 then !neg else neg
        .fixed (L.code neg (if up then h else b)) fIX

/-- Compare the positive rational `n / d` with `m` times 2 to the `e`. -/
def ratCmp (n d m : Nat) (e : Int) : Ordering :=
  if e ≥ 0 then compare n (d * m * 2 ^ e.toNat) else compare (n * 2 ^ (-e).toNat) (d * m)

/-- RoundLog of the magnitude `n / d` with sign `neg` (R83), the stochastic choice left open. -/
def roundLog (L : LFmt) (neg : Bool) (n d : Nat) (s : Int) (rm : Nat) : Narrow :=
  let (n, d) := scaled n d s
  let g := fun b => prodLin L (lamOf L b)
  let lmax := lamOf L L.top
  let lu := -lmax - (lamOf L 2 + lmax) / 2
  let gt := fun (p : Nat × Int) => ratCmp n d p.1 p.2 == .gt
  let ge := fun (p : Nat × Int) => ratCmp n d p.1 p.2 != .lt
  if gt (g L.top) then .fixed (L.code neg L.top) (fLSAT ||| fIX)
  else if !ge (1, lu / (2 ^ L.m : Nat)) then .fixed 0 (fLUNF ||| fIX)
  else if !ge (g 1) then .fixed (L.code neg 1) fIX
  else
    let b := largestBody (fun x => ge (g x)) L.n 0
    if ratCmp n d (g b).1 (g b).2 == .eq then .fixed (L.code neg b) 0
    else
      let h := b + 1
      let lb := lamOf L b
      let lh := lamOf L h
      -- both neighbours in units of the lower one's exponent
      let q := min (g b).2 (g h).2
      let vb := shiftTo (g b).1 (g b).2 q
      let vh := shiftTo (g h).1 (g h).2 q
      if rm = 4 then
        let (a, c) := scaled n d q
        .choice (L.code neg b) (L.code neg h) ((a - vb * c) * 65536 / ((vh - vb) * c)) fIX fIX
      else
        let up := if rm = 0 then
            let theta : Nat × Int :=
              if lh - lb ≥ (2 ^ (L.m - 5) : Nat) ∨ L = L8 then
                let u := (lb + lh) * 32 / (2 ^ L.m : Nat)
                (t64.getD (u % 64).toNat 0, u / 64 - 23)
              else (vb + vh, q - 1)
            gt theta || (ratCmp n d theta.1 theta.2 == .eq && h % 2 == 0)
          else if rm = 1 then false else if rm = 2 then !neg else neg
        .fixed (L.code neg (if up then h else b)) fIX

/-! ### Conversions (R86) -/

/-- A linear value narrowed to an L format under scale `s` (R86). -/
def linToLog (L : LFmt) (v : FVal) (s : Int) (rm : Nat) : Narrow :=
  match v with
  | .nan => .fixed L.nar fNARP
  | .inf n => .fixed (L.code n L.top) (fLSAT ||| fIX)
  | .fin n m e =>
    if m = 0 then .fixed 0 0
    else
      let (a, b) := scaled m 1 (-e)
      roundLog L n a b s rm

/-- A value of a linear or L element narrowed to a linear format (R86). -/
def toLin (F : Fmt) (v : FVal) (rm : Nat) : Narrow :=
  match v with
  | .nan => .fixed F.nan 0
  | .inf n => .fixed (F.signBit n + F.infCode) 0
  | .fin n m e => roundUnits F rm n (if n then -(m : Int) else m) e

/-- L8 to L16: exact (R86). -/
def l8ToL16 (c : Nat) : Nat :=
  match ldecode L8 c with
  | .zero => 0
  | .nar => L16.nar
  | .real n lam => (lencode L16 n (128 * lam) 1 0 0).get.1

/-- L16 to L8 under the kept scale (R86). -/
def l16ToL8 (c : Nat) (s : Int) (rm : Nat) : Narrow :=
  match ldecode L16 c with
  | .zero => .fixed 0 0
  | .nar => .fixed L8.nar 0
  | .real n lam => lencode L8 n (lam + 2048 * s) 128 s rm

/-- SRBits (R85): the comparand of element `i` from its neighbours' discards. -/
def srBits (dl dr i : Nat) : Nat :=
  let rot := (dr * 32 + dr / 2048) % 65536
  ((Nat.xor dl rot) * 0xA5A5 + 0x3C6F * i) % 65536

/-- The narrowed elements of one instruction resolved: `items` lists the written elements by ascending index. -/
def resolveSr (items : List (Nat × Narrow)) : List (Nat × Nat × Flags) :=
  let disc := fun (i : Nat) => match items.find? (fun p => p.1 == i) with
    | some p => p.2.discard
    | none => 0
  items.map (fun p =>
    let r := srBits (if p.1 = 0 then 0 else disc (p.1 - 1)) (disc (p.1 + 1)) p.1
    (p.1, p.2.resolve r))

end Sys2Proof.Machine
end

