-- ==== Sys2Proof/Machine/Scalar.lean ====
section
/-!
DEFINITION. Class 0x0: the scalar instructions (R97 to R104).
-/

namespace Sys2Proof.Machine

/-- NOP (R36): the slot is passed. -/
def execNop (s : State) : Out :=
  match illegalHere .nop s with
  | some r => trapSettled { cls := 0, reason := r } 0 0 s
  | none => if loadWait .nop s.cur then stall s else retire s

/-! ### Values (R43, R97) -/

/-- The width of ST. -/
def stWidth : STy → Nat
  | .i64 => 64 | .n64 => 64 | .i32 => 32 | .n32 => 32 | .i16 => 16 | .n16 => 16 | .i8 => 8 | .n8 => 8

/-- `Ext(x[w-1:0])` as an integer. -/
def stArg (t : STy) (x : Dword) : Int := valOf (stWidth t) (WellFormed.stSigned t) x.toNat
/-- `Ext(res[w-1:0])` as a register value. -/
def stExt (t : STy) (x : Int) : Dword :=
  BitVec.ofInt 64 (valOf (stWidth t) (WellFormed.stSigned t) (wrapTo (stWidth t) x))
/-- `x[w-1:0]` as a natural number. -/
def stBits (t : STy) (x : Dword) : Nat := x.toNat % 2 ^ stWidth t

/-- Leading zeros of the low `w` bits. -/
def clz (w x : Nat) : Nat := if x % 2 ^ w = 0 then w else w - 1 - Nat.log2 (x % 2 ^ w)
/-- Ones among the low `w` bits. -/
def popc (w x : Nat) : Nat := (List.range w).foldl (fun acc i => acc + bitsOf x i 1) 0

/-- Division rounded towards zero (R99). -/
def stDiv (a b : Int) : Int := if b = 0 then -1 else a.tdiv b
/-- The remainder, with the sign of the dividend (R99). -/
def stRem (a b : Int) : Int := if b = 0 then a else a.tmod b

/-- Rotation of a `w`-bit value left by `n`. -/
def rotl (w x n : Nat) : Nat := let k := n % w; (x % 2 ^ w * 2 ^ k) % 2 ^ w + x % 2 ^ w / 2 ^ (w - k)

/-- A scalar result written and the instruction retired. -/
def writeS (d : BitVec 7) (x : Dword) (s : State) : Out := retire (s.mapRegs (fun r => r.setS d.toNat x))
/-- A boolean result written and the instruction retired. -/
def writeB (d : BitVec 3) (x : Bool) (s : State) : Out := retire (s.mapRegs (fun r => r.setB d.toNat x))

/-- The sources of format S3 as the executing stream holds them. -/
def S3.a (f : S3) (s : State) : Dword := s.cur.r.getS f.sa.toNat
def S3.b (f : S3) (s : State) : Dword := s.cur.r.getS f.sb.toNat
def S3.c (f : S3) (s : State) : Dword := s.cur.r.getS f.sc.toNat
/-- Ba, negated when BN is 1 (R98). -/
def S3.bool (f : S3) (s : State) : Bool := s.cur.r.getB f.ba.toNat != f.bn

/-- A form `i` of two scalar sources with result `op` on the extended values (R97). -/
def scalarTwo (i : Instr) (f : S3) (op : Int → Int → Int) (s : State) : Out :=
  issue i f.g s (fun s => writeS f.sd (stExt f.st (op (stArg f.st (S3.a f s)) (stArg f.st (S3.b f s)))) s)
/-- A form of one source value and a count that is the whole of Sb (R97). -/
def scalarShift (i : Instr) (f : S3) (op : Nat → Int) (s : State) : Out :=
  issue i f.g s (fun s => writeS f.sd (stExt f.st (op (S3.b f s).toNat)) s)

/-! ### The forms of R98 -/

def execSmov (f : S3) (s : State) : Out :=
  issue (.smov f) f.g s (fun s => writeS f.sd (stExt f.st (stArg f.st (S3.a f s))) s)

/-- SMOVI without `hi` (R102). -/
def execSmovi (f : SI) (s : State) : Out :=
  issue (.smovi f) f.g s (fun s =>
    writeS f.sd (stExt f.st (if WellFormed.stSigned f.st then f.imm.toInt else f.imm.toNat)) s)

/-- SMOVI with `hi` (R102). -/
def execSmoviHi (f : SI) (s : State) : Out :=
  issue (.smoviHi f) f.g s (fun s => writeS f.sd (putBits (s.cur.r.getS f.sd.toNat) 48 16 f.imm.toNat) s)

def execSadd (f : S3) (s : State) : Out := scalarTwo (.sadd f) f (fun a b => a + b) s

def execSaddi (f : SI) (s : State) : Out :=
  issue (.saddi f) f.g s (fun s => writeS f.sd (stExt f.st (stArg f.st (s.cur.r.getS f.sa.toNat) + f.imm.toInt)) s)

def execSsub (f : S3) (s : State) : Out := scalarTwo (.ssub f) f (fun a b => a - b) s
def execSmul (f : S3) (s : State) : Out := scalarTwo (.smul f) f (fun a b => a * b) s
def execSmulh (f : S3) (s : State) : Out := scalarTwo (.smulh f) f (fun a b => (a * b) / 2 ^ stWidth f.st) s
def execSmulhn (f : S3) (s : State) : Out := scalarTwo (.smulhn f) f (fun a b => (a * b) / 2 ^ stWidth f.st) s
/-- SDIV (R99). -/
def execSdiv (f : S3) (s : State) : Out := scalarTwo (.sdiv f) f stDiv s
/-- SDIVN (R99). -/
def execSdivn (f : S3) (s : State) : Out := scalarTwo (.sdivn f) f stDiv s
/-- SREM (R99). -/
def execSrem (f : S3) (s : State) : Out := scalarTwo (.srem f) f stRem s

/-- A bitwise form: the extension of the low bits of the operation on the whole registers (R97, R98). -/
def scalarBits (i : Instr) (f : S3) (op : Dword → Dword → Dword) (s : State) : Out :=
  issue i f.g s (fun s => writeS f.sd (stExt f.st ((op (S3.a f s) (S3.b f s)).toNat : Int)) s)

def execSand (f : S3) (s : State) : Out := scalarBits (.sand f) f (fun a b => a &&& b) s
def execSor (f : S3) (s : State) : Out := scalarBits (.sor f) f (fun a b => a ||| b) s
def execSxor (f : S3) (s : State) : Out := scalarBits (.sxor f) f (fun a b => a ^^^ b) s
def execSandn (f : S3) (s : State) : Out := scalarBits (.sandn f) f (fun a b => a &&& ~~~ b) s

def execSshl (f : S3) (s : State) : Out :=
  scalarShift (.sshl f) f (fun n => if n ≥ stWidth f.st then 0 else (stBits f.st (S3.a f s) * 2 ^ n : Nat)) s
def execSshr (f : S3) (s : State) : Out :=
  scalarShift (.sshr f) f (fun n => if n ≥ stWidth f.st then 0 else (stBits f.st (S3.a f s) / 2 ^ n : Nat)) s
def execSsra (f : S3) (s : State) : Out :=
  scalarShift (.ssra f) f (fun n =>
    signedOf (stWidth f.st) (S3.a f s).toNat / 2 ^ (min n (stWidth f.st - 1))) s
def execSrot (f : S3) (s : State) : Out :=
  scalarShift (.srot f) f (fun n => (rotl (stWidth f.st) (S3.a f s).toNat n : Nat)) s

def execSmin (f : S3) (s : State) : Out := scalarTwo (.smin f) f (fun a b => min a b) s
def execSmax (f : S3) (s : State) : Out := scalarTwo (.smax f) f (fun a b => max a b) s
def execSminn (f : S3) (s : State) : Out := scalarTwo (.sminn f) f (fun a b => min a b) s
def execSmaxn (f : S3) (s : State) : Out := scalarTwo (.smaxn f) f (fun a b => max a b) s

/-- The conditions 0 to 5 on two integers (R100, R109). -/
def intCond (c : Nat) (a b : Int) : Bool :=
  if c = 0 then a == b
  else if c = 1 then a != b
  else if c = 2 then decide (a < b)
  else if c = 3 then decide (a ≤ b)
  else if c = 4 then decide (a > b)
  else decide (a ≥ b)

/-- The boolean operations 0 to 3 (R100). -/
def boolOp (op : Nat) (c b : Bool) : Bool :=
  if op = 0 then c else if op = 1 then c && b else if op = 2 then c || b else c != b

/-- SCMP (R100). -/
def execScmp (f : S3) (s : State) : Out :=
  issue (.scmp f) f.g s (fun s =>
    let c := intCond (f.sub.toNat % 8) (stArg f.st (S3.a f s)) (stArg f.st (S3.b f s))
    writeB f.bd (boolOp (f.sub.toNat / 8 % 4) c (S3.bool f s)) s)

def execSsel (f : S3) (s : State) : Out :=
  issue (.ssel f) f.g s (fun s =>
    writeS f.sd (stExt f.st (stArg f.st (if S3.bool f s then S3.a f s else S3.b f s))) s)

def execSclz (f : S3) (s : State) : Out :=
  issue (.sclz f) f.g s (fun s => writeS f.sd (stExt f.st (clz (stWidth f.st) (S3.a f s).toNat : Nat)) s)
def execSpopc (f : S3) (s : State) : Out :=
  issue (.spopc f) f.g s (fun s => writeS f.sd (stExt f.st (popc (stWidth f.st) (S3.a f s).toNat : Nat)) s)

/-- A field of `x` at `pos` of `len` bits, extended to 64 bits (R101). -/
def fieldOf (signed : Bool) (x pos len : Nat) : Int :=
  if len = 0 then 0 else valOf len signed (x / 2 ^ pos % 2 ^ len)

/-- `d` with its field at `pos` of `len` bits replaced by the low bits of `x`, within `w` bits (R101, R110). -/
def fieldIn (w d pos len x : Nat) : Nat :=
  let p := min pos w
  let e := min (pos + len) w
  d % 2 ^ p + x % 2 ^ (e - p) * 2 ^ p + d % 2 ^ w / 2 ^ e * 2 ^ e

/-- SBFX (R101). -/
def execSbfx (f : SI) (s : State) : Out :=
  issue (.sbfx f) f.g s (fun s =>
    writeS f.sd (BitVec.ofInt 64 (fieldOf (WellFormed.stSigned f.st) (s.cur.r.getS f.sa.toNat).toNat
      (f.imm.toNat % 64) (f.imm.toNat / 64 % 128))) s)

/-- SBFI (R101). -/
def execSbfi (f : SI) (s : State) : Out :=
  issue (.sbfi f) f.g s (fun s =>
    writeS f.sd (BitVec.ofNat 64 (fieldIn 64 (s.cur.r.getS f.sd.toNat).toNat (f.imm.toNat % 64) (f.imm.toNat / 64 % 128)
      (s.cur.r.getS f.sa.toNat).toNat)) s)

def execSlea (f : S3) (s : State) : Out :=
  issue (.slea f) f.g s (fun s =>
    writeS f.sd (stExt f.st (stArg f.st (S3.a f s) + stArg f.st (S3.b f s) * 2 ^ (f.sub.toNat % 8)
      + stArg f.st (S3.c f s))) s)

/-- Field `k` of WID0 under the widths of the launch header; a field that is not defined reads 0 (R103, R255). -/
def widField (widths : List Nat) (wid : Dword) (k : Nat) : Dword :=
  match widths[k]? with
  | none => 0
  | some w => BitVec.ofNat 64 (getBits wid ((widths.take k).foldl (· + ·) 0) w)

/-- SWID (R103). -/
def execSwid (f : S3) (s : State) : Out :=
  issue (.swid f) f.g s (fun s =>
    let h := s.cur
    writeS f.sd (if f.sub.toNat = 6 then h.pl.wid0
      else widField (s.launch h.pl.launch).hdr.widths h.pl.wid0 f.sub.toNat) s)

/-- SRR (R104). -/
def execSrr (f : SI) (s : State) : Out :=
  issue (.srr f) f.g s (fun s => writeS f.sd (s.sysGet f.imm.toNat) s)

/-- SRW (R104). -/
def execSrw (f : SI) (s : State) : Out :=
  issue (.srw f) f.g s (fun s => retire (s.sysPutUser f.imm.toNat (s.cur.r.getS f.sa.toNat)))

/-- SBOOL (R100). -/
def execSbool (f : S3) (s : State) : Out :=
  issue (.sbool f) f.g s (fun s =>
    let k := f.sub.toNat
    let a := S3.a f s != 0
    let b := S3.bool f s
    if k = 5 then writeS f.sd (if b then 1 else 0) s
    else writeB f.bd (if k = 0 then b else if k = 1 then b && a else if k = 2 then b || a else if k = 3 then b != a
      else if k = 4 then a else if k = 6 then false else true) s)

end Sys2Proof.Machine
end

