-- ==== Sys2Proof/Machine/Special.lean ====
section
/-!
DEFINITION. The eight approximate special functions of R115. The result is the opaque choice of Config wherever it lies
within the bound that R115 gives, and the nearest value of the format otherwise (log entry 15). The bound is checked
against the true value computed in fixed point with 100 fraction bits.
-/

namespace Sys2Proof.Machine

/-- The scale of the fixed-point values here. -/
def fxOne : Int := 2 ^ 100
/-- A fixed-point product. -/
def fxMul (a b : Int) : Int := a * b / fxOne
def fxLn2 : Int := 69314718055994530941723212145817656807550013436025525412068000949339362196969 * fxOne / 10 ^ 77
def fxLog2e : Int := 14426950408889634073599246810018921374266459541529859341354494069311 * fxOne / 10 ^ 67
/-- π with 100 decimals. -/
def piNum : Int :=
  31415926535897932384626433832795028841971693993751058209749445923078164062862089986280348253421170679
def piDen : Int := 10 ^ 100

/-- A power series at `x`: each term is the last one times `f`. -/
def fxSeries (f : Nat → Int → Int) : Nat → Nat → Int → Int → Int
  | 0, _, _, acc => acc
  | k + 1, i, term, acc => let t := f i term; fxSeries f k (i + 1) t (acc + t)

/-- e to the fixed-point power `x`, for `x` from 0 to 1. -/
def fxExp (x : Int) : Int := fxSeries (fun i t => fxMul t x / (i + 1 : Int)) 34 0 fxOne fxOne

/-- 2 to the power of the rational `n / d`, as a rational: numerator and denominator. -/
def exp2Rat (n : Int) (d : Nat) : Nat × Nat :=
  let k := n / (d : Int)
  let f := (n % (d : Int)) * fxOne / (d : Int)
  let y := (fxExp (fxMul f fxLn2)).toNat
  if k ≥ 0 then (y * 2 ^ k.toNat, 2 ^ 100) else (y, 2 ^ (100 + (-k).toNat))

/-- The fraction bits of log2 of the fixed-point `m`, from 1 to 2, by repeated squaring. -/
def fxLog2Bits : Nat → Int → Int → Int
  | 0, _, acc => acc
  | k + 1, m, acc =>
    let sq := fxMul m m
    if sq ≥ 2 * fxOne then fxLog2Bits k (sq / 2) (2 * acc + 1) else fxLog2Bits k sq (2 * acc)

/-- log2 of the positive rational `n / d` as a fixed-point value. -/
def fxLog2 (n d : Nat) : Int :=
  let e := floorLog2 n d
  let (a, b) := scaled n d e
  let m : Int := (a : Int) * fxOne / b
  e * fxOne + fxLog2Bits 80 m 0 * 2 ^ 20

/-- The fixed-point sine and cosine of a fixed-point angle from −π to π. -/
def fxSin (x : Int) : Int :=
  fxSeries (fun i t => -(fxMul (fxMul t x) x) / (((2 * i + 2) * (2 * i + 3) : Nat) : Int)) 30 0 x x
def fxCos (x : Int) : Int :=
  fxSeries (fun i t => -(fxMul (fxMul t x) x) / (((2 * i + 1) * (2 * i + 2) : Nat) : Int)) 30 0 fxOne fxOne

/-- The rational `n / d` radians reduced to an angle from −π to π, in fixed point. -/
def fxAngle (n : Int) (d : Nat) : Int :=
  -- n/d mod 2π, by exact rational arithmetic with π rounded at 100 decimals
  let twoPi := 2 * piNum
  let num := n * piDen
  let den := (d : Int) * twoPi
  let turns := (2 * num + den) / (2 * den)
  (num - turns * den) * fxOne / ((d : Int) * piDen)

/-- One over the square root of the positive rational `n / d`, to 100 bits. -/
def rsqRat (n d : Nat) : Nat × Nat :=
  let e := floorLog2 d n / 2
  let (a, b) := scaled d n (2 * (e - 100))
  scaled (isqrt (a / b)) 1 (100 - e)

/-- The numbers of the approximate functions. -/
inductive SpFn where
  | rcp | rsq | exp2 | log2 | sin | cos | tanh | sigm
  deriving DecidableEq, Repr

def SpFn.num : SpFn → Nat
  | .rcp => 0 | .rsq => 1 | .exp2 => 2 | .log2 => 3 | .sin => 4 | .cos => 5 | .tanh => 6 | .sigm => 7

/-- The true result at the finite non-zero `x / d`, as a signed rational. -/
def spTrue (fn : SpFn) (x : Int) (d : Nat) : Int × Nat :=
  match fn with
  | .rcp => if x < 0 then (-(d : Int), x.natAbs) else ((d : Int), x.natAbs)
  | .rsq => let (n, m) := rsqRat x.natAbs d; ((n : Int), m)
  | .exp2 => let (n, m) := exp2Rat x d; ((n : Int), m)
  | .log2 => (fxLog2 x.natAbs d, 2 ^ 100)
  | .sin => (fxSin (fxAngle x d), 2 ^ 100)
  | .cos => (fxCos (fxAngle x d), 2 ^ 100)
  | .tanh =>
    let sg : Int := if x < 0 then -1 else 1
    if x.natAbs ≥ 64 * d then (sg, 1)
    else
      let (n, m) := exp2Rat (2 * (x.natAbs : Int) * fxLog2e) (d * 2 ^ 100)
      (sg * ((n : Int) - m), n + m)
  | .sigm =>
    if x ≥ 256 * (d : Int) then (1, 1)
    else if x ≤ -256 * (d : Int) then (0, 1)
    else
      let (n, m) := exp2Rat (-x * fxLog2e) (d * 2 ^ 100)
      ((m : Int), m + n)

/-- How many ulps each bound allows, and whether 2 to the −24 absolute is allowed if larger (R115). -/
def SpFn.bound : SpFn → Nat × Bool
  | .rcp => (1, false) | .rsq => (1, false) | .exp2 => (2, false) | .log2 => (2, false)
  | .sin => (2, true) | .cos => (2, true) | .tanh => (2, true) | .sigm => (2, true)

/-- The signed rational value of a finite code. -/
def codeRat (F : Fmt) (c : Nat) : Option (Int × Nat) :=
  match fdecode F c with
  | .fin n m e =>
    let (a, b) := scaled m 1 (-e)
    some (if n then -(a : Int) else a, b)
  | _ => none

/-- Whether code `c` lies within the bound of `fn` around the true value `n / d` (R115). -/
def withinBound (F : Fmt) (fn : SpFn) (c : Nat) (n : Int) (d : Nat) : Bool :=
  match codeRat F c with
  | none => false
  | some (a, b) =>
    let diff := (a * d - n * b).natAbs        -- over b * d
    let q := max (floorLog2 (max n.natAbs 1) (if n = 0 then 2 ^ 300 else d) - F.fb) F.qmin
    let (un, ud) := scaled 1 1 (-q)
    let ulps := diff * ud ≤ fn.bound.1 * un * (b * d)
    ulps || (fn.bound.2 && decide (diff * 2 ^ 24 ≤ b * d))

/-- The TY code of the format (R42). -/
def Fmt.tyCode (F : Fmt) : Nat := if F.eb = 5 then 5 else if F.w = 16 then 4 else 3

/-- The result at a finite non-zero element that is no exact case (R115). -/
def spApprox (F : Fmt) (fn : SpFn) (c : Nat) (x : Int) (d : Nat) : Nat × Flags :=
  let (n, m) := spTrue fn x d
  let near := if n = 0 then (0, fIX) else (roundRat F 0 (n < 0) n.natAbs m).get
  if near.2 &&& fOF != 0 then near
  else
    let pickd := Config.specialResult fn.num F.tyCode c % 2 ^ F.w
    let r := if withinBound F fn pickd n m then pickd else near.1
    let tiny := r % 2 ^ (F.w - 1) < 2 ^ F.fb
    (r, if tiny then fIX ||| fUF else fIX)

/-- Whether the positive `m` times 2 to the `e` is a power of two, and its exponent. -/
def powerOfTwo (m : Nat) (e : Int) : Option Int := if m = 2 ^ Nat.log2 m then some (e + Nat.log2 m) else none

/-- A special function on one element (R115). -/
def specialOp (F : Fmt) (fn : SpFn) (c : Nat) : Nat × Flags :=
  match fdecode F c with
  | .nan => (F.nan, 0)
  | .inf n =>
    match fn with
    | .rcp => (F.signBit n, 0)
    | .rsq => if n then (F.nan, fIV) else (0, 0)
    | .exp2 => if n then (0, 0) else (F.infCode, 0)
    | .log2 => if n then (F.nan, fIV) else (F.infCode, 0)
    | .sin => (F.nan, fIV)
    | .cos => (F.nan, fIV)
    | .tanh => (F.signBit n + (F.bias * 2 ^ F.fb), 0)
    | .sigm => if n then (0, 0) else (F.bias * 2 ^ F.fb, 0)
  | .fin n m e =>
    let (a, d) := scaled m 1 (-e)
    let x : Int := if n then -(a : Int) else a
    let one := F.bias * 2 ^ F.fb
    if m = 0 then
      match fn with
      | .rcp => (F.signBit n + F.infCode, fDZ)
      | .rsq => (F.signBit n + F.infCode, fDZ)
      | .exp2 => (one, 0)
      | .log2 => (F.signBit true + F.infCode, fDZ)
      | .sin => (c, 0)
      | .cos => (one, 0)
      | .tanh => (c, 0)
      | .sigm => (one - 2 ^ F.fb, 0)
    else
      match fn with
      | .rcp =>
        match powerOfTwo m e with
        | some _ =>
          let r := (roundRat F 0 n d a).get
          if r.2 = 0 then r else spApprox F fn c x d
        | none => spApprox F fn c x d
      | .rsq =>
        if n then (F.nan, fIV)
        else match powerOfTwo m e with
          | some k =>
            if k % 2 = 0 then (roundUnits F 0 false 1 (-(k / 2))).get else spApprox F fn c x d
          | none => spApprox F fn c x d
      | .exp2 =>
        if d = 1 ∨ a % d = 0 then
          let k := x / (d : Int)
          if k > 1024 ∨ k < -1024 then spApprox F fn c (if n then -1024 else 1024) 1
          else
            let r := (roundUnits F 0 false 1 k).get
            if r.2 = 0 then r else spApprox F fn c k 1
        else spApprox F fn c (max (-1024 * (d : Int)) (min (1024 * (d : Int)) x)) d
      | .log2 =>
        if n then (F.nan, fIV)
        else match powerOfTwo m e with
          | some k => (roundUnits F 0 false k 0).get
          | none => spApprox F fn c x d
      | .sin => spApprox F fn c x d
      | .cos => spApprox F fn c x d
      | .tanh => spApprox F fn c x d
      | .sigm => spApprox F fn c x d

end Sys2Proof.Machine
end

