-- ==== Sys2Proof/Machine/Vector.lean ====
section
/-!
DEFINITION. The common form of the vector instructions (R105 to R107) and class 0x2 (R108 to R112). What an instruction
computes is a VRes, a function of its stream alone, so that a pair can compute both results before it writes either (R59).
-/

namespace Sys2Proof.Machine

/-! ### Results -/

/-- What a vector instruction writes: a vector register with its lanes and tag, a predicate, its flags, or a trap. -/
structure VRes where
  vd : Option (Nat × Vector Word 32 × BitVec 12) := none
  pd : Option (Nat × Word) := none
  flags : Flags := 0
  trap : Option Cause := none
  deriving DecidableEq, Repr

/-- The registers with a result written. -/
def VRes.write (x : VRes) (r : Regs) : Regs :=
  let r := match x.vd with
    | some (n, lanes, tag) => r.writeV n lanes tag
    | none => r
  match x.pd with
  | some (p, w) => r.setP p w
  | none => r

/-- A result taken as R92 and R93 give: a trap, class 6 for an enabled flag, or the writes with the flags. -/
def finishV (i : Instr) (x : VRes) (s : State) : Out :=
  match x.trap with
  | some c => trapAt i c s
  | none =>
    if flgTraps s.cur.y.flg x.flags then trapAt i (arithCause x.flags) (s.addFlags x.flags)
    else retire ((s.mapRegs x.write).addFlags x.flags)

/-- A vector instruction with guard `g` and result `k`. -/
def vecExec (i : Instr) (g : Guard) (k : Hart → VRes) (s : State) : Out :=
  issue i g s (fun s => finishV i (k s.cur) s)

/-! ### Elements (R87, R105) -/

/-- Element `e` of a lane that holds `P` elements. -/
def elemOf (P : Nat) (x : Word) (e : Nat) : Nat := bitsOf x.toNat (32 / P * e) (32 / P)
/-- The lane with element `e` replaced. -/
def putElem (P : Nat) (x : Word) (e v : Nat) : Word :=
  BitVec.ofNat 32 (x.toNat - elemOf P x e * 2 ^ (32 / P * e) + v % 2 ^ (32 / P) * 2 ^ (32 / P * e))

/-- Elements by index placed in a register's lanes. -/
def putElems (P : Nat) (lanes : Vector Word 32) (xs : List (Nat × Nat)) : Vector Word 32 :=
  xs.foldl (fun v x => vset v (x.1 / P) (putElem P (vget v (x.1 / P) 0) (x.1 % P) x.2)) lanes

/-- The element indices that a mask writes, in ascending order (R87). -/
def elemIdx (m : Word) (P : Nat) : List Nat := (lanesOf m).flatMap (fun l => (List.range P).map (fun e => P * l + e))

/-- The roundings of the elements written, resolved, under .sr by R85. -/
def resolveAll (rm : Nat) (items : List (Nat × Narrow)) : List (Nat × Nat × Flags) :=
  if rm = 4 then resolveSr items else items.map (fun p => (p.1, p.2.get))

/-- The flags of the elements written (R92). -/
def orFlags (xs : List (Nat × Nat × Flags)) : Flags := xs.foldl (fun acc x => acc ||| x.2.2) 0

/-- A register written element by element: `op` gives the element of each index. -/
def elemRes (h : Hart) (d : BitVec 10) (rm P : Nat) (tag : BitVec 12) (idx : List Nat) (op : Nat → Narrow) : VRes :=
  let xs := resolveAll rm (idx.map (fun i => (i, op i)))
  { vd := some (d.toNat, putElems P (h.r.getV d.toNat).lanes (xs.map (fun x => (x.1, x.2.1))), tag), flags := orFlags xs }

/-- A register written lane by lane, with no flag. -/
def laneRes (h : Hart) (d : BitVec 10) (m : Word) (tag : BitVec 12) (op : Nat → Word) : VRes :=
  { vd := some (d.toNat, (lanesOf m).foldl (fun v l => vset v l (op l)) (h.r.getV d.toNat).lanes, tag) }

/-! ### Operands of format V3 -/

/-- The lane mask of the instruction. -/
def V3.mask (f : V3) (h : Hart) : Word := laneMask h f.g
/-- Lane `l` of each source; the second is the broadcast scalar when BS is 1 (R47, R105). -/
def V3.laneA (f : V3) (h : Hart) (l : Nat) : Word := (h.r.getV f.va.toNat).lane l
def V3.sb (f : V3) (h : Hart) : Dword := h.r.getS (lowS f.vb)
def V3.laneB (f : V3) (h : Hart) (l : Nat) : Word :=
  if f.bs then (V3.sb f h).truncate 32 else (h.r.getV f.vb.toNat).lane l
def V3.laneC (f : V3) (h : Hart) (l : Nat) : Word := (h.r.getV f.vc.toNat).lane l
/-- The scales of the sources; a broadcast scalar has scale 0. -/
def V3.scaleA (f : V3) (h : Hart) : Int := tagScale (h.r.getV f.va.toNat).tag
def V3.scaleB (f : V3) (h : Hart) : Int := if f.bs then 0 else tagScale (h.r.getV f.vb.toNat).tag
/-- The elements per lane of TY. -/
def V3.P (f : V3) : Nat := WellFormed.perLane f.ty.toNat
/-- The element width of TY. -/
def V3.w (f : V3) : Nat := 32 / V3.P f
/-- Elements by index (R87). -/
def V3.elA (f : V3) (h : Hart) (i : Nat) : Nat := elemOf (V3.P f) (V3.laneA f h (i / V3.P f)) (i % V3.P f)
def V3.elB (f : V3) (h : Hart) (i : Nat) : Nat := elemOf (V3.P f) (V3.laneB f h (i / V3.P f)) (i % V3.P f)
def V3.elC (f : V3) (h : Hart) (i : Nat) : Nat := elemOf (V3.P f) (V3.laneC f h (i / V3.P f)) (i % V3.P f)
/-- The tag (TY, 0) of a typed form (R106). -/
def V3.tag (f : V3) : BitVec 12 := mkTag f.ty.toNat 0
/-- The tag of a raw form that reads Va (R106). -/
def V3.rawTag (f : V3) (h : Hart) : BitVec 12 :=
  if f.ty = 0 then (h.r.getV f.va.toNat).tag else normTag (mkTag f.ty.toNat (V3.scaleA f h))
/-- TY is signed. -/
def tySigned (ty : BitVec 4) : Bool := WellFormed.tSint.contains ty.toNat

/-! ### Integer forms (R108) -/

/-- An element-wise integer form; `op` is given the operands as integers under TY's signedness. -/
def intRes (f : V3) (op : Int → Int → Int → Int) (h : Hart) : VRes :=
  elemRes h f.vd 0 (V3.P f) (V3.tag f) (elemIdx (V3.mask f h) (V3.P f)) (fun i =>
    let v := fun x => valOf (V3.w f) (tySigned f.ty) x
    .fixed (wrapTo (V3.w f) (op (v (V3.elA f h i)) (v (V3.elB f h i)) (v (V3.elC f h i)))) 0)

/-- An element-wise form on the elements' bits. -/
def bitsRes (f : V3) (op : Nat → Nat → Nat) (h : Hart) : VRes :=
  elemRes h f.vd 0 (V3.P f) (V3.tag f) (elemIdx (V3.mask f h) (V3.P f)) (fun i =>
    .fixed (op (V3.elA f h i) (V3.elB f h i)) 0)

/-- A raw form on whole lanes. -/
def rawRes (f : V3) (op : Word → Word → Word) (h : Hart) : VRes :=
  laneRes h f.vd (V3.mask f h) (V3.rawTag f h) (fun l => op (V3.laneA f h l) (V3.laneB f h l))

/-- VMOV (R108). -/
def vmovRes (f : V3) (h : Hart) : VRes :=
  if f.bs then laneRes h f.vd (V3.mask f h) (V3.tag f) (fun l => V3.laneB f h l)
  else rawRes f (fun a _ => a) h

/-- VMOVI (R112). -/
def vmoviRes (f : V2I) (h : Hart) : VRes :=
  laneRes h f.vd (laneMask h f.g) (normTag (mkTag f.ty.toNat f.sub.toInt)) (fun _ => f.imm)

/-- VBCAST (R108). -/
def vbcastRes (f : V3) (h : Hart) : VRes :=
  let src := if f.bs then (V3.sb f h).toNat % 32 else f.sub.toNat % 32
  laneRes h f.vd (V3.mask f h) (V3.rawTag f h) (fun _ => V3.laneA f h src)

/-- VLANE (R108). -/
def vlaneRes (f : V3) (h : Hart) : VRes :=
  laneRes h f.vd (V3.mask f h) (V3.tag f)
    (fun l => BitVec.ofNat 32 (l + if f.bs then (V3.sb f h).toNat else 0))

def vaddRes (f : V3) : Hart → VRes := intRes f (fun a b _ => a + b)
def vsubRes (f : V3) : Hart → VRes := intRes f (fun a b _ => a - b)
def vmulRes (f : V3) : Hart → VRes := intRes f (fun a b _ => a * b)
def vmulhRes (f : V3) : Hart → VRes := intRes f (fun a b _ => (a * b) / 2 ^ V3.w f)
def vmulhnRes (f : V3) : Hart → VRes := intRes f (fun a b _ => (a * b) / 2 ^ V3.w f)
def vmadRes (f : V3) : Hart → VRes := intRes f (fun a b c => a * b + c)
def vandRes (f : V3) : Hart → VRes := rawRes f (fun a b => a &&& b)
def vorRes (f : V3) : Hart → VRes := rawRes f (fun a b => a ||| b)
def vxorRes (f : V3) : Hart → VRes := rawRes f (fun a b => a ^^^ b)
def vandnRes (f : V3) : Hart → VRes := rawRes f (fun a b => a &&& ~~~ b)
/-- The shifts (R110). -/
def vshlRes (f : V3) : Hart → VRes := bitsRes f (fun a n => if n ≥ V3.w f then 0 else a * 2 ^ n)
def vshrRes (f : V3) : Hart → VRes := bitsRes f (fun a n => if n ≥ V3.w f then 0 else a / 2 ^ n)
def vsraRes (f : V3) : Hart → VRes :=
  bitsRes f (fun a n => wrapTo (V3.w f) (signedOf (V3.w f) a / 2 ^ (min n (V3.w f))))
def vminRes (f : V3) : Hart → VRes := intRes f (fun a b _ => min a b)
def vmaxRes (f : V3) : Hart → VRes := intRes f (fun a b _ => max a b)
def vminnRes (f : V3) : Hart → VRes := intRes f (fun a b _ => min a b)
def vmaxnRes (f : V3) : Hart → VRes := intRes f (fun a b _ => max a b)
def vabsRes (f : V3) : Hart → VRes := intRes f (fun a _ _ => if a < 0 then -a else a)
def vclzRes (f : V3) : Hart → VRes := bitsRes f (fun a _ => clz (V3.w f) a)
def vpopcRes (f : V3) : Hart → VRes := bitsRes f (fun a _ => popc (V3.w f) a)
def vaddsRes (f : V3) : Hart → VRes := intRes f (fun a b _ => saturate (V3.w f) (tySigned f.ty) (a + b))
def vsubsRes (f : V3) : Hart → VRes := intRes f (fun a b _ => saturate (V3.w f) (tySigned f.ty) (a - b))

/-- A comparison's predicate (R107, R109): `c` decides one element. -/
def cmpRes (f : V3) (c : Nat → Bool) (h : Hart) : VRes :=
  let m := V3.mask f h
  let lane := fun l =>
    let es := (List.range (V3.P f)).map (fun e => c (V3.P f * l + e))
    if f.sub.toNat / 8 % 2 = 1 then es.any id else es.all id
  { pd := some (f.pp.toNat, maskOf (fun l => m.getLsbD l && lane l)) }

/-- VCMP (R109). -/
def vcmpRes (f : V3) (h : Hart) : VRes :=
  let v := fun x => valOf (V3.w f) (tySigned f.ty) x
  cmpRes f (fun i => intCond (f.sub.toNat % 8) (v (V3.elA f h i)) (v (V3.elB f h i))) h

/-- VSEL (R108). -/
def vselRes (f : V3) (h : Hart) : VRes :=
  laneRes h f.vd (V3.mask f h) (V3.rawTag f h)
    (fun l => if (h.r.getP f.pp.toNat).getLsbD l then V3.laneA f h l else V3.laneB f h l)

/-- VBFX (R110). -/
def vbfxRes (f : V2I) (h : Hart) : VRes :=
  laneRes h f.vd (laneMask h f.g) (mkTag f.ty.toNat 0) (fun l =>
    BitVec.ofInt 32 (fieldOf (f.ty == 1) ((h.r.getV f.va.toNat).lane l).toNat (f.imm.toNat % 32) (f.imm.toNat / 32 % 64)))

/-- VBFI (R110). -/
def vbfiRes (f : V2I) (h : Hart) : VRes :=
  laneRes h f.vd (laneMask h f.g) (mkTag f.ty.toNat 0) (fun l =>
    BitVec.ofNat 32 (fieldIn 32 ((h.r.getV f.vd.toNat).lane l).toNat (f.imm.toNat % 32) (f.imm.toNat / 32 % 64)
      ((h.r.getV f.va.toNat).lane l).toNat))

/-- VDOT4 (R111). -/
def vdot4Res (f : V3) (h : Hart) : VRes :=
  let v := fun x => valOf 8 (f.ty == 8) x
  laneRes h f.vd (V3.mask f h) (mkTag (if f.ty = 8 then 1 else 2) 0) (fun l =>
    let p := (List.range 4).foldl (fun (acc : Int) e => acc + v (V3.elA f h (4 * l + e)) * v (V3.elB f h (4 * l + e))) 0
    BitVec.ofInt 32 (p + (V3.laneC f h l).toNat))

/-- VPERMB (R111). -/
def vpermbRes (f : V3) (h : Hart) : VRes :=
  laneRes h f.vd (V3.mask f h) (V3.rawTag f h) (fun l =>
    (List.range 4).foldl (fun x j =>
      let c := elemOf 4 (V3.laneC f h l) j
      let b := if c ≥ 128 then 0
        else elemOf 4 (if c / 4 % 2 = 1 then V3.laneB f h l else V3.laneA f h l) (c % 4)
      putElem 4 x j b) 0)

/-- VTAG (R112). -/
def vtagRes (f : V2I) (h : Hart) : VRes :=
  laneRes h f.vd (laneMask h f.g) (normTag (f.imm.truncate 12)) (fun l => (h.r.getV f.va.toNat).lane l)

/-- VTAGR that reads the tag (R112). -/
def vtagrReadRes (f : V3) (h : Hart) : VRes :=
  laneRes h f.vd (V3.mask f h) (mkTag 2 0) (fun _ => (h.r.getV f.va.toNat).tag.zeroExtend 32)

/-- VTAGR that sets the tag (R112). -/
def vtagrSetRes (f : V3) (h : Hart) : VRes :=
  let t : BitVec 12 := (V3.sb f h).truncate 12
  if 11 ≤ tagCode t ∧ tagCode t ≤ 14 then { trap := some { cls := 1, detail := tagDetail t 0 } }
  else laneRes h f.vd (V3.mask f h) (normTag t) (fun l => V3.laneA f h l)

/-! ### The instructions -/

def execVmov (f : V3) (s : State) : Out := vecExec (.vmov f) f.g (vmovRes f) s
def execVmovi (f : V2I) (s : State) : Out := vecExec (.vmovi f) f.g (vmoviRes f) s
def execVbcast (f : V3) (s : State) : Out := vecExec (.vbcast f) f.g (vbcastRes f) s
def execVlane (f : V3) (s : State) : Out := vecExec (.vlane f) f.g (vlaneRes f) s
def execVadd (f : V3) (s : State) : Out := vecExec (.vadd f) f.g (vaddRes f) s
def execVsub (f : V3) (s : State) : Out := vecExec (.vsub f) f.g (vsubRes f) s
def execVmul (f : V3) (s : State) : Out := vecExec (.vmul f) f.g (vmulRes f) s
def execVmulh (f : V3) (s : State) : Out := vecExec (.vmulh f) f.g (vmulhRes f) s
def execVmulhn (f : V3) (s : State) : Out := vecExec (.vmulhn f) f.g (vmulhnRes f) s
def execVmad (f : V3) (s : State) : Out := vecExec (.vmad f) f.g (vmadRes f) s
def execVand (f : V3) (s : State) : Out := vecExec (.vand f) f.g (vandRes f) s
def execVor (f : V3) (s : State) : Out := vecExec (.vor f) f.g (vorRes f) s
def execVxor (f : V3) (s : State) : Out := vecExec (.vxor f) f.g (vxorRes f) s
def execVandn (f : V3) (s : State) : Out := vecExec (.vandn f) f.g (vandnRes f) s
def execVshl (f : V3) (s : State) : Out := vecExec (.vshl f) f.g (vshlRes f) s
def execVshr (f : V3) (s : State) : Out := vecExec (.vshr f) f.g (vshrRes f) s
def execVsra (f : V3) (s : State) : Out := vecExec (.vsra f) f.g (vsraRes f) s
def execVmin (f : V3) (s : State) : Out := vecExec (.vmin f) f.g (vminRes f) s
def execVmax (f : V3) (s : State) : Out := vecExec (.vmax f) f.g (vmaxRes f) s
def execVminn (f : V3) (s : State) : Out := vecExec (.vminn f) f.g (vminnRes f) s
def execVmaxn (f : V3) (s : State) : Out := vecExec (.vmaxn f) f.g (vmaxnRes f) s
def execVabs (f : V3) (s : State) : Out := vecExec (.vabs f) f.g (vabsRes f) s
def execVcmp (f : V3) (s : State) : Out := vecExec (.vcmp f) f.g (vcmpRes f) s
def execVsel (f : V3) (s : State) : Out := vecExec (.vsel f) f.g (vselRes f) s
def execVclz (f : V3) (s : State) : Out := vecExec (.vclz f) f.g (vclzRes f) s
def execVpopc (f : V3) (s : State) : Out := vecExec (.vpopc f) f.g (vpopcRes f) s
def execVbfx (f : V2I) (s : State) : Out := vecExec (.vbfx f) f.g (vbfxRes f) s
def execVbfi (f : V2I) (s : State) : Out := vecExec (.vbfi f) f.g (vbfiRes f) s
def execVadds (f : V3) (s : State) : Out := vecExec (.vadds f) f.g (vaddsRes f) s
def execVsubs (f : V3) (s : State) : Out := vecExec (.vsubs f) f.g (vsubsRes f) s
def execVdot4 (f : V3) (s : State) : Out := vecExec (.vdot4 f) f.g (vdot4Res f) s
def execVpermb (f : V3) (s : State) : Out := vecExec (.vpermb f) f.g (vpermbRes f) s
def execVtag (f : V2I) (s : State) : Out := vecExec (.vtag f) f.g (vtagRes f) s
def execVtagrRead (f : V3) (s : State) : Out := vecExec (.vtagrRead f) f.g (vtagrReadRes f) s
def execVtagrSet (f : V3) (s : State) : Out := vecExec (.vtagrSet f) f.g (vtagrSetRes f) s

end Sys2Proof.Machine
end

