-- ==== Sys2Proof/Machine/Float.lean ====
section
/-!
DEFINITION. Class 0x3: the vector float instructions (R113 to R116).
-/

namespace Sys2Proof.Machine

/-- The linear format of a TY or source code (R88). -/
def fmtOf (ty : Nat) : Fmt := if ty = 4 then BF16 else if ty = 5 then F16 else F32

/-- The format of an instruction's TY. -/
def V3.fmt (f : V3) : Fmt := fmtOf f.ty.toNat

/-- An element-wise float form; `op` gives a code and flags from the elements of Va, Vb and Vc. -/
def floatRes (f : V3) (op : Nat → Nat → Nat → Nat × Flags) (h : Hart) : VRes :=
  elemRes h f.vd 0 (V3.P f) (V3.tag f) (elemIdx (V3.mask f h) (V3.P f)) (fun i =>
    let r := op (V3.elA f h i) (V3.elB f h i) (V3.elC f h i)
    .fixed r.1 r.2)

def faddRes (f : V3) : Hart → VRes := floatRes f (fun a b _ => faddOp (V3.fmt f) f.rm.toNat a b)
def fsubRes (f : V3) : Hart → VRes := floatRes f (fun a b _ => fsubOp (V3.fmt f) f.rm.toNat a b)
def fmulRes (f : V3) : Hart → VRes := floatRes f (fun a b _ => fmulOp (V3.fmt f) f.rm.toNat a b)
def ffmaRes (f : V3) : Hart → VRes := floatRes f (fun a b c => ffmaOp (V3.fmt f) f.rm.toNat a b c false false)
def ffmsRes (f : V3) : Hart → VRes := floatRes f (fun a b c => ffmaOp (V3.fmt f) f.rm.toNat a b c false true)
def fnmaRes (f : V3) : Hart → VRes := floatRes f (fun a b c => ffmaOp (V3.fmt f) f.rm.toNat a b c true false)
def fminRes (f : V3) : Hart → VRes := floatRes f (fun a b _ => (fminmaxOp (V3.fmt f) false a b, 0))
def fmaxRes (f : V3) : Hart → VRes := floatRes f (fun a b _ => (fminmaxOp (V3.fmt f) true a b, 0))
def fabsRes (f : V3) : Hart → VRes := floatRes f (fun a _ _ => (fabsOp (V3.fmt f) a, 0))
def fnegRes (f : V3) : Hart → VRes := floatRes f (fun a _ _ => (fnegOp (V3.fmt f) a, 0))

/-- The conditions 0 to 7 on an ordering that may be absent (R109). -/
def ordCond (c : Nat) (o : Option Ordering) : Bool :=
  match o with
  | none => c == 1 || c == 6
  | some o =>
    if c = 0 then o == .eq else if c = 1 then o != .eq else if c = 2 then o == .lt else if c = 3 then o != .gt
    else if c = 4 then o == .gt else if c = 5 then o != .lt else c == 7

/-- FCMP (R109). -/
def fcmpRes (f : V3) (h : Hart) : VRes :=
  cmpRes f (fun i => ordCond (f.sub.toNat % 8)
    (fcompare (fdecode (V3.fmt f) (V3.elA f h i)) (fdecode (V3.fmt f) (V3.elB f h i)))) h

/-- FCLASS (R114); the result carries N32. -/
def fclassRes (f : V3) (h : Hart) : VRes :=
  laneRes h f.vd (V3.mask f h) (mkTag 2 0) (fun l => BitVec.ofNat 32 (fclassOp (V3.laneA f h l).toNat))

/-- FRND (R114). -/
def frndRes (f : V3) : Hart → VRes := floatRes f (fun a _ _ => (frndOp (V3.fmt f) f.rm.toNat a, 0))
/-- FDIV and FSQRT (R115). -/
def fdivRes (f : V3) : Hart → VRes := floatRes f (fun a b _ => fdivOp (V3.fmt f) f.rm.toNat a b)
def fsqrtRes (f : V3) : Hart → VRes := floatRes f (fun a _ _ => fsqrtOp (V3.fmt f) f.rm.toNat a)
/-- The approximate forms (R115, log entry 15). -/
def frcpRes (f : V3) : Hart → VRes := floatRes f (fun a _ _ => specialOp (V3.fmt f) .rcp a)
def frsqRes (f : V3) : Hart → VRes := floatRes f (fun a _ _ => specialOp (V3.fmt f) .rsq a)
def fexp2Res (f : V3) : Hart → VRes := floatRes f (fun a _ _ => specialOp (V3.fmt f) .exp2 a)
def flog2Res (f : V3) : Hart → VRes := floatRes f (fun a _ _ => specialOp (V3.fmt f) .log2 a)
def fsinRes (f : V3) : Hart → VRes := floatRes f (fun a _ _ => specialOp (V3.fmt f) .sin a)
def fcosRes (f : V3) : Hart → VRes := floatRes f (fun a _ _ => specialOp (V3.fmt f) .cos a)
def ftanhRes (f : V3) : Hart → VRes := floatRes f (fun a _ _ => specialOp (V3.fmt f) .tanh a)
def fsigmRes (f : V3) : Hart → VRes := floatRes f (fun a _ _ => specialOp (V3.fmt f) .sigm a)

/-- FDOT2 (R116): one F32 element per lane. -/
def fdot2Res (f : V3) (h : Hart) : VRes :=
  elemRes h f.vd 0 1 (mkTag 3 0) (elemIdx (V3.mask f h) 1) (fun l =>
    let r := fdot2Op (V3.fmt f) f.rm.toNat (V3.elA f h (2 * l)) (V3.elB f h (2 * l)) (V3.elA f h (2 * l + 1))
      (V3.elB f h (2 * l + 1)) (V3.laneC f h l).toNat
    .fixed r.1 r.2)

def execFadd (f : V3) (s : State) : Out := vecExec (.fadd f) f.g (faddRes f) s
def execFsub (f : V3) (s : State) : Out := vecExec (.fsub f) f.g (fsubRes f) s
def execFmul (f : V3) (s : State) : Out := vecExec (.fmul f) f.g (fmulRes f) s
def execFfma (f : V3) (s : State) : Out := vecExec (.ffma f) f.g (ffmaRes f) s
def execFfms (f : V3) (s : State) : Out := vecExec (.ffms f) f.g (ffmsRes f) s
def execFnma (f : V3) (s : State) : Out := vecExec (.fnma f) f.g (fnmaRes f) s
def execFmin (f : V3) (s : State) : Out := vecExec (.fmin f) f.g (fminRes f) s
def execFmax (f : V3) (s : State) : Out := vecExec (.fmax f) f.g (fmaxRes f) s
def execFabs (f : V3) (s : State) : Out := vecExec (.fabs f) f.g (fabsRes f) s
def execFneg (f : V3) (s : State) : Out := vecExec (.fneg f) f.g (fnegRes f) s
def execFcmp (f : V3) (s : State) : Out := vecExec (.fcmp f) f.g (fcmpRes f) s
def execFclass (f : V3) (s : State) : Out := vecExec (.fclass f) f.g (fclassRes f) s
def execFrnd (f : V3) (s : State) : Out := vecExec (.frnd f) f.g (frndRes f) s
def execFdiv (f : V3) (s : State) : Out := vecExec (.fdiv f) f.g (fdivRes f) s
def execFsqrt (f : V3) (s : State) : Out := vecExec (.fsqrt f) f.g (fsqrtRes f) s
def execFrcp (f : V3) (s : State) : Out := vecExec (.frcp f) f.g (frcpRes f) s
def execFrsq (f : V3) (s : State) : Out := vecExec (.frsq f) f.g (frsqRes f) s
def execFexp2 (f : V3) (s : State) : Out := vecExec (.fexp2 f) f.g (fexp2Res f) s
def execFlog2 (f : V3) (s : State) : Out := vecExec (.flog2 f) f.g (flog2Res f) s
def execFsin (f : V3) (s : State) : Out := vecExec (.fsin f) f.g (fsinRes f) s
def execFcos (f : V3) (s : State) : Out := vecExec (.fcos f) f.g (fcosRes f) s
def execFtanh (f : V3) (s : State) : Out := vecExec (.ftanh f) f.g (ftanhRes f) s
def execFsigm (f : V3) (s : State) : Out := vecExec (.fsigm f) f.g (fsigmRes f) s
def execFdot2 (f : V3) (s : State) : Out := vecExec (.fdot2 f) f.g (fdot2Res f) s

end Sys2Proof.Machine
end

