-- ==== Sys2Proof/Machine/Convert.lean ====
section
/-!
DEFINITION. Class 0x4: conversions and the log-domain instructions (R117 to R124).
-/

namespace Sys2Proof.Machine

/-- The L format of a code. -/
def lfmtOf (ty : Nat) : LFmt := if ty = 6 then L16 else L8
/-- A code names an L format. -/
def isLog (c : Nat) : Bool := c == 6 || c == 7
/-- A code names an integer format. -/
def isInt (c : Nat) : Bool := WellFormed.tInt.contains c
/-- A signed integer code. -/
def codeSigned (c : Nat) : Bool := WellFormed.tSint.contains c
/-- Clamp (R120). -/
def clampScale (s : Int) : Int := max (-128) (min 127 s)

/-! ### CVT and CVTI (R117, R118) -/

/-- One element of code `src` with scale `sa` converted to code `dst` with scale `st` (R71, R86). -/
def convertElem (src dst rm : Nat) (sa st : Int) (x : Nat) : Narrow :=
  let n := 32 / WellFormed.perLane src
  let k := 32 / WellFormed.perLane dst
  if src = 7 ∧ dst = 6 then .fixed (l8ToL16 x) 0
  else if src = 6 ∧ dst = 7 then l16ToL8 x sa rm
  else if isInt src then
    let v := valOf n (codeSigned src) x
    if isLog dst then linToLog (lfmtOf dst) (.fin (v < 0) v.natAbs 0) st rm else fromIntOp (fmtOf dst) rm v 0
  else
    let v := if isLog src then lvalue (lfmtOf src) sa x else fdecode (fmtOf src) x
    if isLog dst then linToLog (lfmtOf dst) v st rm
    else if isInt dst then
      match v with
      | .nan => .fixed 0 fIV
      | .inf neg => .fixed (wrapTo k (if neg then intMin k (codeSigned dst) else intMax k (codeSigned dst))) fIV
      | .fin neg m e =>
        let a := m * 2 ^ (max e 0).toNat
        let r := toIntRat k (codeSigned dst) rm (if neg then -(a : Int) else a) (2 ^ (max (-e) 0).toNat)
        .fixed r.1 r.2
    else toLin (fmtOf dst) v rm

/-- The pairs of source and target elements of a lane (R117). -/
def cvtPairs (ps pt h : Nat) : List (Nat × Nat) :=
  if ps = pt then (List.range pt).map (fun e => (e, e))
  else if pt > ps then (List.range ps).map (fun e => (e, h * ps + e))
  else (List.range pt).map (fun e => (h * pt + e, e))

/-- CVT and CVTI. -/
def convertRes (f : V3) (h : Hart) : VRes :=
  let src := f.sub.toNat % 16
  let dst := f.ty.toNat
  let ps := WellFormed.perLane src
  let pt := WellFormed.perLane dst
  let pairs := cvtPairs ps pt (f.sub.toNat / 16 % 4)
  let sa := V3.scaleA f h
  let st : Int := if isLog dst && isLog src then sa
    else if isLog dst && f.bs then ((V3.sb f h).truncate 8 : BitVec 8).toInt else 0
  let idx := (lanesOf (V3.mask f h)).flatMap (fun l => pairs.map (fun p => pt * l + p.2))
  elemRes h f.vd f.rm.toNat pt (mkTag dst (if isLog dst then st else 0)) idx (fun i =>
    match pairs.find? (fun p => p.2 == i % pt) with
    | some p => convertElem src dst f.rm.toNat sa st (elemOf ps (V3.laneA f h (i / pt)) p.1)
    | none => .fixed 0 0)

def cvtRes (f : V3) : Hart → VRes := convertRes f
def cvtiRes (f : V3) : Hart → VRes := convertRes f

/-- CVTF (R119). -/
def cvtfRes (f : V3) (h : Hart) : VRes :=
  let n := f.sub.toNat % 32
  elemRes h f.vd 0 1 (V3.tag f) (elemIdx (V3.mask f h) 1) (fun l =>
    let a := (V3.laneA f h l).toNat
    if f.ty = 3 then fromIntOp F32 f.rm.toNat (valOf 32 (f.sub.toNat < 64) a) n
    else
      let r := toIntOp F32 32 (f.ty == 1) f.rm.toNat n a
      .fixed r.1 r.2)

/-! ### Log-domain arithmetic (R120 to R122, R124) -/

/-- A log-domain form: the scale, and each element from the decoded operands and their exact logarithms. -/
def logRes (f : V3) (h : Hart) (scale : Int) (op : LFmt → LVal → LVal → Int → Int → Narrow) : VRes :=
  let L := lfmtOf f.ty.toNat
  elemRes h f.vd f.rm.toNat (V3.P f) (mkTag f.ty.toNat (clampScale scale)) (elemIdx (V3.mask f h) (V3.P f)) (fun i =>
    op L (ldecode L (V3.elA f h i)) (ldecode L (V3.elB f h i)) (scaleUnits L (V3.scaleA f h)) (scaleUnits L (V3.scaleB f h)))

/-- LMUL (R120). -/
def lmulRes (f : V3) (h : Hart) : VRes :=
  let s := V3.scaleA f h + V3.scaleB f h
  logRes f h s (fun L a b sa sb =>
    match a, b with
    | .nar, _ => .fixed L.nar 0
    | _, .nar => .fixed L.nar 0
    | .real n la, .real m lb => lencode L (n != m) (la + sa + (lb + sb)) 1 (clampScale s) f.rm.toNat
    | _, _ => .fixed 0 0)

/-- LDIV (R120). -/
def ldivRes (f : V3) (h : Hart) : VRes :=
  let s := V3.scaleA f h - V3.scaleB f h
  logRes f h s (fun L a b sa sb =>
    match a, b with
    | .nar, _ => .fixed L.nar 0
    | _, .nar => .fixed L.nar 0
    | .zero, .zero => .fixed L.nar (fIV ||| fNARP)
    | _, .zero => .fixed L.nar (fDZ ||| fNARP)
    | .zero, _ => .fixed 0 0
    | .real n la, .real m lb => lencode L (n != m) (la + sa - (lb + sb)) 1 (clampScale s) f.rm.toNat)

/-- LSQR (R120). -/
def lsqrRes (f : V3) (h : Hart) : VRes :=
  let s := 2 * V3.scaleA f h
  logRes f h s (fun L a _ sa _ =>
    match a with
    | .nar => .fixed L.nar 0
    | .zero => .fixed 0 0
    | .real _ la => lencode L false (2 * (la + sa)) 1 (clampScale s) f.rm.toNat)

/-- LSQRT (R120). -/
def lsqrtRes (f : V3) (h : Hart) : VRes :=
  let s := V3.scaleA f h / 2
  logRes f h s (fun L a _ sa _ =>
    match a with
    | .nar => .fixed L.nar 0
    | .zero => .fixed 0 0
    | .real n la =>
      if n then .fixed L.nar (fIV ||| fNARP) else lencode L false (la + sa) 2 (clampScale s) f.rm.toNat)

/-- LSCALE (R121). -/
def lscaleRes (f : V3) (h : Hart) : VRes :=
  let d : Int := if f.bs then (V3.sb f h).toInt else f.sub.toInt
  let s := V3.scaleA f h + d
  if -128 ≤ s ∧ s ≤ 127 then
    laneRes h f.vd (V3.mask f h) (mkTag f.ty.toNat s) (fun l => V3.laneA f h l)
  else
    logRes f h s (fun L a _ sa _ =>
      match a with
      | .nar => .fixed L.nar 0
      | .zero => .fixed 0 0
      | .real n la => lencode L n (la + sa + scaleUnits L d) 1 (clampScale s) f.rm.toNat)

/-- The floor of the logarithm to base 2 of a finite non-zero element (R122). -/
def floorLogOf (F : Fmt) (c : Nat) : Option Int :=
  match fdecode F c with
  | .fin _ m e => if m = 0 then none else some ((Nat.log2 m : Int) + e)
  | _ => none

/-- LMAXS (R122). -/
def lmaxsRes (f : V3) (h : Hart) : VRes :=
  let src := f.sub.toNat % 16
  let p := WellFormed.perLane src
  let top := (elemIdx (V3.mask f h) p).foldl (fun (acc : Option Int) i =>
    match floorLogOf (fmtOf src) (elemOf p (V3.laneA f h (i / p)) (i % p)), acc with
    | some k, some a => some (max k a)
    | some k, none => some k
    | none, a => a) none
  let s : Int := match top with
    | some k => clampScale (k + 1 - if f.ty = 7 then 12 else 56)
    | none => 0
  laneRes h f.vd (V3.mask f h) (mkTag 1 0) (fun _ => BitVec.ofInt 32 s)

/-- LCMP's order of two elements with their scales (R124). -/
def lcompare (L : LFmt) (a b : LVal) (sa sb : Int) : Option Ordering :=
  let key := fun (v : LVal) (s : Int) => match v with
    | .zero => some ((0 : Int), (0 : Int))
    | .nar => none
    | .real n lam => some (if n then (-1, -(lam + scaleUnits L s)) else (1, lam + scaleUnits L s))
  match key a sa, key b sb with
  | some (x, p), some (y, q) => some (if x = y then compare p q else compare x y)
  | _, _ => none

/-- LCMP (R124). -/
def lcmpRes (f : V3) (h : Hart) : VRes :=
  let L := lfmtOf f.ty.toNat
  cmpRes f (fun i => ordCond (f.sub.toNat % 8)
    (lcompare L (ldecode L (V3.elA f h i)) (ldecode L (V3.elB f h i)) (V3.scaleA f h) (V3.scaleB f h))) h

/-! ### PACK and UNPACK (R123) -/

/-- PACK: element `e` comes from Va for the low half and from Vb for the high half. -/
def packRes (f : V3) (h : Hart) : VRes :=
  let ps := if f.ty = 10 then 1 else 2
  let n := 32 / ps
  let w := V3.w f
  elemRes h f.vd 0 (V3.P f) (V3.tag f) (elemIdx (V3.mask f h) (V3.P f)) (fun i =>
    let l := i / V3.P f
    let e := i % V3.P f
    let x := if e < ps then elemOf ps (V3.laneA f h l) e else elemOf ps (V3.laneB f h l) (e - ps)
    let v := valOf n true x
    let t := saturate w (tySigned f.ty) v
    if f.sub.toNat % 2 = 0 then .fixed (wrapTo w v) 0 else .fixed (wrapTo w t) (if t = v then 0 else fIV))

/-- UNPACK. -/
def unpackRes (f : V3) (h : Hart) : VRes :=
  let k := f.sub.toNat % 2
  let ps := if f.ty = 1 then 2 else 4
  elemRes h f.vd 0 (V3.P f) (V3.tag f) (elemIdx (V3.mask f h) (V3.P f)) (fun i =>
    let l := i / V3.P f
    let e := i % V3.P f
    .fixed (wrapTo (V3.w f) (valOf (32 / ps) (f.ty == 1 || f.sub.toNat < 2)
      (elemOf ps (V3.laneA f h l) (if f.ty = 1 then k else 2 * k + e)))) 0)

def execCvt (f : V3) (s : State) : Out := vecExec (.cvt f) f.g (cvtRes f) s
def execCvti (f : V3) (s : State) : Out := vecExec (.cvti f) f.g (cvtiRes f) s
def execCvtf (f : V3) (s : State) : Out := vecExec (.cvtf f) f.g (cvtfRes f) s
def execLmul (f : V3) (s : State) : Out := vecExec (.lmul f) f.g (lmulRes f) s
def execLdiv (f : V3) (s : State) : Out := vecExec (.ldiv f) f.g (ldivRes f) s
def execLsqr (f : V3) (s : State) : Out := vecExec (.lsqr f) f.g (lsqrRes f) s
def execLsqrt (f : V3) (s : State) : Out := vecExec (.lsqrt f) f.g (lsqrtRes f) s
def execLscale (f : V3) (s : State) : Out := vecExec (.lscale f) f.g (lscaleRes f) s
def execLmaxs (f : V3) (s : State) : Out := vecExec (.lmaxs f) f.g (lmaxsRes f) s
def execPack (f : V3) (s : State) : Out := vecExec (.pack f) f.g (packRes f) s
def execUnpack (f : V3) (s : State) : Out := vecExec (.unpack f) f.g (unpackRes f) s
def execLcmp (f : V3) (s : State) : Out := vecExec (.lcmp f) f.g (lcmpRes f) s

end Sys2Proof.Machine
end

