-- ==== Sys2Proof/Machine/Lane.lean ====
section
/-!
DEFINITION. Class 0x5: the cross-lane instructions (R125 to R134).
-/

namespace Sys2Proof.Machine

/-- SHFL (R126). -/
def shflRes (f : V3) (h : Hart) : VRes :=
  let mode := f.sub.toNat % 4
  let n := if f.bs then (V3.sb f h).toNat % 32 else f.sub.toNat / 4 % 32
  laneRes h f.vd (V3.mask f h) (V3.rawTag f h) (fun l =>
    let src : Int :=
      if mode = 0 then (if f.bs then n else (V3.laneB f h l).toNat % 32)
      else if mode = 1 then (l : Int) - n
      else if mode = 2 then (l : Int) + n
      else Nat.xor l n
    V3.laneA f h (if src < 0 ∨ src > 31 then l else src.toNat))

/-- VOTE (R127). -/
def voteRes (f : V3) (h : Hart) : VRes :=
  let m := V3.mask f h
  let x := h.r.getP (f.va.toNat % 16) &&& m
  let op := f.sub.toNat % 4
  { pd := some (f.pp.toNat,
      if op = 0 then (if x = m then m else 0)
      else if op = 1 then (if x ≠ 0 then m else 0)
      else if op = 2 then x
      else if x = 0 ∨ x = m then m else 0) }

/-- The combining operation of VRED and VSCAN (R128). -/
def redOp (ty : BitVec 4) (op rm a b : Nat) : Nat × Flags :=
  if ty = 3 then
    if op = 0 then faddOp F32 rm a b
    else (fminmaxOp F32 (op == 2) a b, 0)
  else
    let v := fun x => valOf 32 (ty == 1) x
    (wrapTo 32 (if op = 0 then v a + v b else if op = 1 then min (v a) (v b) else if op = 2 then max (v a) (v b)
      else if op = 3 then ((Nat.land a b : Nat) : Int) else if op = 4 then ((Nat.lor a b : Nat) : Int)
      else ((Nat.xor a b : Nat) : Int)), 0)

/-- One level of the tree of R128: neighbours combined in pairs, with the flags gathered. -/
def redLevel (comb : Nat → Nat → Nat × Flags) : List (Option Nat) → List (Option Nat) × Flags
  | x :: y :: rest =>
    let (r, fl) := redLevel comb rest
    match x, y with
    | some a, some b => let (c, g) := comb a b; (some c :: r, fl ||| g)
    | some a, none => (some a :: r, fl)
    | none, y => (y :: r, fl)
  | l => (l, 0)

/-- The whole tree: `k` levels. -/
def redTree (comb : Nat → Nat → Nat × Flags) : Nat → List (Option Nat) → Option Nat × Flags
  | 0, l => (l.headD none, 0)
  | k + 1, l =>
    let (l', f) := redLevel comb l
    let (r, g) := redTree comb k l'
    (r, f ||| g)

/-- VRED (R128). -/
def vredRes (f : V3) (h : Hart) : VRes :=
  let m := V3.mask f h
  let (r, fl) := redTree (redOp f.ty (f.sub.toNat % 8) f.rm.toNat) 5
    ((List.range 32).map (fun l => if m.getLsbD l then some (V3.laneA f h l).toNat else none))
  { laneRes h f.vd m (V3.tag f) (fun _ => BitVec.ofNat 32 (r.getD 0)) with flags := fl }

/-- Id of R129. -/
def scanId (ty : BitVec 4) (op : Nat) : Nat :=
  if op = 1 then (if ty = 3 then F32.infCode else if ty = 1 then 2 ^ 31 - 1 else 2 ^ 32 - 1)
  else if op = 2 then (if ty = 3 then 2 ^ 31 + F32.infCode else if ty = 1 then 2 ^ 31 else 0)
  else if op = 3 then 2 ^ 32 - 1
  else 0

/-- The scan of R129 over the lanes left: what each lane receives, and the flags. -/
def scanList (comb : Nat → Nat → Nat × Flags) (excl : Bool) (idn : Nat) (src : Nat → Nat) :
    Option Nat → List Nat → List (Nat × Nat) × Flags
  | _, [] => ([], 0)
  | acc, l :: rest =>
    let (next, fl) := match acc with
      | none => (src l, (0 : Flags))
      | some a => comb a (src l)
    let (r, g) := scanList comb excl idn src (some next) rest
    ((l, if excl then acc.getD idn else next) :: r, fl ||| g)

/-- VSCAN (R129). -/
def vscanRes (f : V3) (h : Hart) : VRes :=
  let op := f.sub.toNat % 8
  let (xs, fl) := scanList (redOp f.ty op f.rm.toNat) (f.sub.toNat / 8 % 2 == 1) (scanId f.ty op)
    (fun l => (V3.laneA f h l).toNat) none (lanesOf (V3.mask f h))
  { vd := some (f.vd.toNat, putElems 1 (h.r.getV f.vd.toNat).lanes xs, V3.tag f), flags := fl }

/-- VWRL (R130). -/
def vwrlRes (f : V3) (h : Hart) : VRes :=
  let src := if f.sub.toNat / 32 % 2 = 1 then (h.r.getS (lowS f.va)).toNat % 32 else f.sub.toNat % 32
  if (V3.mask f h).getLsbD src then
    laneRes h f.vd (maskOf (fun l => l == src))
      (if f.ty = 0 then (h.r.getV f.vd.toNat).tag else V3.tag f) (fun _ => (V3.sb f h).truncate 32)
  else {}

/-- PMOV (R131). -/
def pmovRes (f : V3) (h : Hart) : VRes :=
  let a := h.r.getP (f.va.toNat % 16)
  let b := h.r.getP (f.vb.toNat % 16)
  let op := f.sub.toNat % 8
  { pd := some (f.pp.toNat,
      if op = 0 then a else if op = 1 then a &&& b else if op = 2 then a ||| b else if op = 3 then a ^^^ b
      else if op = 4 then a &&& ~~~ b else if op = 5 then ~~~ a else V3.mask f h) }

/-- PFROMS (R131). -/
def pfromsRes (f : V3) (h : Hart) : VRes := { pd := some (f.pp.toNat, (V3.sb f h).truncate 32) }

/-- Mix32 (R132). -/
def mix32 (x : Word) : Word :=
  let x := x ^^^ (x >>> 16)
  let x := x * 0x6C8E9CF5
  let x := x ^^^ (x >>> 13)
  let x := x * 0x7B4F3A27
  x ^^^ (x >>> 16)

/-- DMASK (R132). -/
def dmaskRes (f : V3) (h : Hart) : VRes :=
  let k : Word := (V3.sb f h).truncate 32
  let p := (V3.sb f h).toNat / 2 ^ 32 % 2 ^ 16
  let m := V3.mask f h
  { pd := some (f.pp.toNat, maskOf (fun l => m.getLsbD l && (mix32 (V3.laneA f h l ^^^ k)).toNat / 2 ^ 16 < p)) }

/-- The key that VCMX orders by (R133). -/
def cmxKey (ty : BitVec 4) (x : Word) : Int :=
  if ty = 1 then x.toInt else if ty = 2 then x.toNat else totalKey x.toNat

/-- The lane that VCMX moves into lane `l` (R133). -/
def cmxSrc (f : V3) (h : Hart) (l : Nat) : Nat :=
  let j := f.sub.toNat % 8
  let k := f.sub.toNat / 8 % 8
  let p := Nat.xor l (2 ^ j)
  if (V3.mask f h).getLsbD p then
    let lo := min l p
    let hi := max l p
    let asc := k == 5 || (k ≤ 4 && lo / 2 ^ k % 2 == 0)
    let a := cmxKey f.ty (V3.laneA f h lo)
    let b := cmxKey f.ty (V3.laneA f h hi)
    let swap := if asc then decide (a > b) else decide (a < b)
    if swap then p else l
  else l

/-- VCMX (R133). -/
def vcmxRes (f : V3) (h : Hart) : VRes :=
  let payload := f.sub.toNat / 64 % 2 == 1
  laneRes h f.vd (V3.mask f h) (if payload then (h.r.getV f.vb.toNat).tag else V3.tag f)
    (fun l => if payload then (h.r.getV f.vb.toNat).lane (cmxSrc f h l) else V3.laneA f h (cmxSrc f h l))

/-- VMATCH (R134): the lanes of the mask whose value is that of lane `l`. -/
def matchMask (f : V3) (h : Hart) (l : Nat) : Word :=
  let m := V3.mask f h
  maskOf (fun q => m.getLsbD q && V3.laneA f h q == V3.laneA f h l)

def vmatchRes (f : V3) (h : Hart) : VRes :=
  let m := V3.mask f h
  { laneRes h f.vd m (mkTag 2 0) (fun l => matchMask f h l) with
    pd := some (f.pp.toNat, maskOf (fun l => m.getLsbD l && (lanesOf (matchMask f h l)).headD 32 == l)) }

def execShfl (f : V3) (s : State) : Out := vecExec (.shfl f) f.g (shflRes f) s
def execVote (f : V3) (s : State) : Out := vecExec (.vote f) f.g (voteRes f) s
def execVred (f : V3) (s : State) : Out := vecExec (.vred f) f.g (vredRes f) s
def execVscan (f : V3) (s : State) : Out := vecExec (.vscan f) f.g (vscanRes f) s

/-- VRDL (R130). -/
def execVrdl (f : V3) (s : State) : Out :=
  issue (.vrdl f) f.g s (fun s =>
    let src := if f.bs then (V3.sb f s.cur).toNat % 32 else f.sub.toNat % 32
    let x := V3.laneA f s.cur src
    retire (s.mapRegs (fun r => r.setS (lowS f.vd) (if f.ty = 1 then x.signExtend 64 else x.zeroExtend 64))))

def execVwrl (f : V3) (s : State) : Out := vecExec (.vwrl f) f.g (vwrlRes f) s

/-- PCOUNT (R131). -/
def execPcount (f : V3) (s : State) : Out :=
  issue (.pcount f) f.g s (fun s =>
    let x := s.cur.r.getP f.pp.toNat &&& V3.mask f s.cur
    let n := if f.sub.toNat % 2 = 1 then (lanesOf x).headD 32 else (lanesOf x).length
    retire (s.mapRegs (fun r => r.setS (lowS f.vd) (BitVec.ofNat 64 n))))

def execPmov (f : V3) (s : State) : Out := vecExec (.pmov f) f.g (pmovRes f) s
def execPfroms (f : V3) (s : State) : Out := vecExec (.pfroms f) f.g (pfromsRes f) s

/-- PTOS (R131). -/
def execPtos (f : V3) (s : State) : Out :=
  issue (.ptos f) f.g s (fun s =>
    retire (s.mapRegs (fun r => r.setS (lowS f.vd) ((s.cur.r.getP f.pp.toNat).zeroExtend 64))))

def execDmask (f : V3) (s : State) : Out := vecExec (.dmask f) f.g (dmaskRes f) s
def execVcmx (f : V3) (s : State) : Out := vecExec (.vcmx f) f.g (vcmxRes f) s
def execVmatch (f : V3) (s : State) : Out := vecExec (.vmatch f) f.g (vmatchRes f) s

end Sys2Proof.Machine
end

