-- ==== Sys2Proof/Machine/Pair.lean ====
section
/-!
DEFINITION. Pairs of classes 0x2 to 0x4 (R59 to R62): which pairs are legal, and the one step that both instructions take.
-/

namespace Sys2Proof.Machine

/-- The guard and the result of an instruction that may stand in a pair (R62). -/
def vecFn : Instr → Option (Guard × (Hart → VRes))
  | .vmov f => some (f.g, vmovRes f)
  | .vmovi f => some (f.g, vmoviRes f)
  | .vbcast f => some (f.g, vbcastRes f)
  | .vlane f => some (f.g, vlaneRes f)
  | .vadd f => some (f.g, vaddRes f)
  | .vsub f => some (f.g, vsubRes f)
  | .vmul f => some (f.g, vmulRes f)
  | .vmulh f => some (f.g, vmulhRes f)
  | .vmulhn f => some (f.g, vmulhnRes f)
  | .vmad f => some (f.g, vmadRes f)
  | .vand f => some (f.g, vandRes f)
  | .vor f => some (f.g, vorRes f)
  | .vxor f => some (f.g, vxorRes f)
  | .vandn f => some (f.g, vandnRes f)
  | .vshl f => some (f.g, vshlRes f)
  | .vshr f => some (f.g, vshrRes f)
  | .vsra f => some (f.g, vsraRes f)
  | .vmin f => some (f.g, vminRes f)
  | .vmax f => some (f.g, vmaxRes f)
  | .vminn f => some (f.g, vminnRes f)
  | .vmaxn f => some (f.g, vmaxnRes f)
  | .vabs f => some (f.g, vabsRes f)
  | .vcmp f => some (f.g, vcmpRes f)
  | .vsel f => some (f.g, vselRes f)
  | .vclz f => some (f.g, vclzRes f)
  | .vpopc f => some (f.g, vpopcRes f)
  | .vbfx f => some (f.g, vbfxRes f)
  | .vbfi f => some (f.g, vbfiRes f)
  | .vadds f => some (f.g, vaddsRes f)
  | .vsubs f => some (f.g, vsubsRes f)
  | .vdot4 f => some (f.g, vdot4Res f)
  | .vpermb f => some (f.g, vpermbRes f)
  | .vtag f => some (f.g, vtagRes f)
  | .vtagrRead f => some (f.g, vtagrReadRes f)
  | .vtagrSet f => some (f.g, vtagrSetRes f)
  | .fadd f => some (f.g, faddRes f)
  | .fsub f => some (f.g, fsubRes f)
  | .fmul f => some (f.g, fmulRes f)
  | .ffma f => some (f.g, ffmaRes f)
  | .ffms f => some (f.g, ffmsRes f)
  | .fnma f => some (f.g, fnmaRes f)
  | .fmin f => some (f.g, fminRes f)
  | .fmax f => some (f.g, fmaxRes f)
  | .fabs f => some (f.g, fabsRes f)
  | .fneg f => some (f.g, fnegRes f)
  | .fcmp f => some (f.g, fcmpRes f)
  | .fclass f => some (f.g, fclassRes f)
  | .frnd f => some (f.g, frndRes f)
  | .fdiv f => some (f.g, fdivRes f)
  | .fsqrt f => some (f.g, fsqrtRes f)
  | .frcp f => some (f.g, frcpRes f)
  | .frsq f => some (f.g, frsqRes f)
  | .fexp2 f => some (f.g, fexp2Res f)
  | .flog2 f => some (f.g, flog2Res f)
  | .fsin f => some (f.g, fsinRes f)
  | .fcos f => some (f.g, fcosRes f)
  | .ftanh f => some (f.g, ftanhRes f)
  | .fsigm f => some (f.g, fsigmRes f)
  | .fdot2 f => some (f.g, fdot2Res f)
  | .cvt f => some (f.g, cvtRes f)
  | .cvti f => some (f.g, cvtiRes f)
  | .cvtf f => some (f.g, cvtfRes f)
  | .lmul f => some (f.g, lmulRes f)
  | .ldiv f => some (f.g, ldivRes f)
  | .lsqr f => some (f.g, lsqrRes f)
  | .lsqrt f => some (f.g, lsqrtRes f)
  | .lscale f => some (f.g, lscaleRes f)
  | .lmaxs f => some (f.g, lmaxsRes f)
  | .pack f => some (f.g, packRes f)
  | .unpack f => some (f.g, unpackRes f)
  | .lcmp f => some (f.g, lcmpRes f)
  | _ => none

/-- The special-function forms (R60). -/
def isSpecial (i : Instr) : Bool :=
  match i with
  | .fdiv _ | .fsqrt _ | .frcp _ | .frsq _ | .fexp2 _ | .flog2 _ | .fsin _ | .fcos _ | .ftanh _ | .fsigm _ => true
  | _ => false

/-- The predicates that an instruction reads, its guard among them. -/
def predsRead (i : Instr) : List Nat := (guardOfWord i).gp.toNat :: (uses i).pr
/-- The vector registers read through Va, Vb or Vc (R61). -/
def bankSources (u : Uses) : List Nat := ((u.vs.filter (fun x => x.bank)).map (fun x => x.r)).dedup

/-- The rules 2 to 5 of R62 for two instructions of classes 0x2 to 0x4. -/
def pairLegal (i j : Instr) : Bool :=
  let u := uses i
  let v := uses j
  let rv := u.vs.map (fun x => x.r)
  let sv := v.vs.map (fun x => x.r)
  let shared := (rv.filter (fun r => sv.contains r)).dedup
  !(isSpecial i && isSpecial j)
    && !(u.vd.any (fun r => v.vd.contains r)) && !(u.pw.any (fun p => v.pw.contains p))
    && !(rv.any (fun r => v.vd.contains r)) && !(sv.any (fun r => u.vd.contains r))
    && !((predsRead i).any (fun p => v.pw.contains p)) && !((predsRead j).any (fun p => u.pw.contains p))
    && shared.length ≤ 1
    && !((bankSources u).any (fun a => !shared.contains a
          && (bankSources v).any (fun b => !shared.contains b && a % 4 == b % 4)))

/-- A word stands in class 0x2, 0x3 or 0x4. -/
def pairClass (w : BitVec 96) : Bool := 2 ≤ w.toNat / 2 ^ 92 && w.toNat / 2 ^ 92 ≤ 4

/-- The reason that a word alone earns on this stream (R58). -/
def wordReason (w : BitVec 96) (s : State) : Option Nat :=
  match decode w with
  | .error r => some r.code
  | .ok i => illegalHere i s

/-- The reason of the first slot of a pair: its own, or 7 for a pair that breaks R62. DESIGN CHOICE, log entry 69: a pair
whose second word alone is ILLEGAL is not held against R62, and that slot's own reason is recorded. -/
def pairReason (w0 w1 : BitVec 96) (s : State) : Option Nat :=
  match wordReason w0 s with
  | some r => some r
  | none => match decode w0, decode w1 with
    | .ok i, .ok j => if pairLegal i j then none else some 7
    | _, _ => none

/-- CLASS and FN of a word. -/
def wordForm (w : BitVec 96) : Nat × Nat := (w.toNat / 2 ^ 92, w.toNat / 2 ^ 86 % 64)

/-- A trap of one slot of a pair; `second` names slot 1. -/
def pairTrap (w : BitVec 96) (c : Cause) (second : Bool) (s : State) : Out :=
  trapOut { c with second := second } (wordForm w).1 (wordForm w).2 s

/-- What one instruction of a pair does at issue: nothing under an empty mask, a trap, or its result. -/
inductive PairHalf where
  | idle
  | trap (c : Cause) (flags : Flags)
  | res (x : VRes)
  deriving DecidableEq, Repr

/-- One half of a pair that does not wait. -/
def pairHalf (i : Instr) (g : Guard) (k : Hart → VRes) (s : State) : PairHalf :=
  if laneMask s.cur g == 0 then .idle
  else if emptyTrap (uses i) s.cur.r then .trap { cls := 2 } 0
  else match sourceTrap (uses i) s with
    | some c => .trap c 0
    | none =>
      let x := k s.cur
      match x.trap with
      | some c => .trap c 0
      | none => if flgTraps s.cur.y.flg x.flags then .trap (arithCause x.flags) x.flags else .res x

/-- The registers and flags that a half leaves when the pair completes. -/
def PairHalf.write (x : PairHalf) (s : State) : State :=
  match x with
  | .res v => (s.mapRegs v.write).addFlags v.flags
  | _ => s

/-- A legal pair that has no reason to wait: both halves or neither (R59). -/
def pairEffect (w0 w1 : BitVec 96) (a b : PairHalf) (s : State) : Out :=
  match a, b with
  | .trap c fa, .trap _ fb => pairTrap w0 c false (s.addFlags (fa ||| fb))
  | .trap c fa, _ => pairTrap w0 c false (s.addFlags fa)
  | _, .trap c fb => pairTrap w1 c true (s.addFlags fb)
  | _, _ =>
    let s := b.write (a.write s)
    .next { s with
      cur := { s.cur.counted 2 with c := { (s.cur.counted 2).c with pc := nextPc (nextPc s.cur.c.pc) } }, picked := false }

/-- The pair of words `w0` and `w1` at the executing stream's slot. -/
def execPair (w0 w1 : BitVec 96) (s : State) : Out :=
  if !settled s.cur then stall s
  else if !(pairClass w0 && pairClass w1) then
    pairTrap w0 { cls := 0, reason := (wordReason w0 s).getD 7 } false s
  else match pairReason w0 w1 s, wordReason w1 s with
    | some r, _ => pairTrap w0 { cls := 0, reason := r } false s
    | none, some r => pairTrap w1 { cls := 0, reason := r } true s
    | none, none =>
      match decode w0, decode w1 with
      | .ok i, .ok j =>
        match vecFn i, vecFn j with
          | some (gi, ki), some (gj, kj) =>
            let on := fun (g : Guard) => laneMask s.cur g != 0
            if loadWait i s.cur then stall s
            else if (on gi && blockWait (uses i) s.cur.r) || (on gj && blockWait (uses j) s.cur.r) then stall s
            else pairEffect w0 w1 (pairHalf i gi ki s) (pairHalf j gj kj s) s
          | _, _ => stall s
      | _, _ => stall s

end Sys2Proof.Machine
end

