-- ==== Sys2Proof/Machine/Coherence.lean ====
section
/-!
DEFINITION. The coherence tree of R170 to R184, kept per word (log entry 9), with the version of each value (log entry
10), the scope checker of R185, and what a home slice does for a word (R192, R194).
-/

namespace Sys2Proof.Machine

/-! ### Nodes (R18, R170) -/

/-- The cores under a node of each level. -/
def nodeSpan (level : Nat) : Nat :=
  if level = 0 then 1 else if level = 1 then 4 else if level = 2 then 32 else if level = 3 then 64
  else if level = 4 then 256 else 512

/-- The node of a level above a core. -/
def chainNode (core level : Nat) : Node := { level := level, idx := core / nodeSpan level }
/-- The node `m` lies in the subtree of `n`. -/
def nodeUnder (n m : Node) : Bool :=
  m.level ≤ n.level && decide (m.idx * nodeSpan m.level / nodeSpan n.level = n.idx)

/-- The issuer of an access (R170): a core, or the cluster of a core. -/
structure Issuer where
  core : Nat
  lvl : Nat
  deriving DecidableEq, Repr

/-- The issuer of a stream's own accesses: its core, or its cluster for Bowler (R139). -/
def issuerOf (h : Hart) : Issuer :=
  match h.role with
  | .warp => { core := h.pl.core, lvl := 0 }
  | .bowler => { core := h.pl.core, lvl := 1 }
/-- The cluster of a core as an issuer. -/
def clusterIssuer (core : Nat) : Issuer := { core := core / 4 * 4, lvl := 1 }

/-- The levels of a chain from the issuer's own up to `top`. -/
def chainLevels (i : Issuer) (top : Nat) : List Nat := (List.range (top + 1)).filter (fun l => i.lvl ≤ l)

/-- The number of a scope (R170). -/
def scopeNum : Scope → Nat
  | .core => 0 | .clus => 1 | .die => 2 | .stack => 3 | .half => 4 | .pkg => 5 | .sys => 6 | .surv => 7

/-- ScopeOf as the level of N_S (R170), 6 for the home slice: an engine is never narrower than its cluster, and KIND 1
and 4 are performed at system scope. -/
def scopeLevel (i : Issuer) (sc : Scope) (kind : Nat) : Nat :=
  if kind = 1 ∨ kind = 4 then 6 else max i.lvl (min (scopeNum sc) 6)

/-! ### Copies -/

/-- The name of a word at a level: the levels above the die know only the physical word (R312). -/
def keyAt (level : Nat) (k : WKey) : WKey := if level ≤ 2 then k else { asid := 0, va := 0, pw := k.pw }

/-- A node that holds nothing for a word. -/
def Copy.none (n : Node) (k : WKey) : Copy :=
  { node := n, key := keyAt n.level k, st := .i, val := Option.none, bad := false, ver := 0, pf := 0 }

/-- The entry of a node for a word. -/
def State.copyAt (s : State) (n : Node) (k : WKey) : Copy :=
  (s.copies.find? (fun c => c.node == n && c.key == keyAt n.level k)).getD (Copy.none n k)

/-- An entry stored; one that says nothing is removed. -/
def State.setCopy (s : State) (c : Copy) : State :=
  let rest := s.copies.filter (fun x => !(x.node == c.node && x.key == c.key))
  { s with copies := if c.st == .i && c.pf == 0 then rest else c :: rest }

def State.updCopy (s : State) (n : Node) (k : WKey) (f : Copy → Copy) : State := s.setCopy (f (s.copyAt n k))

/-- A new version. -/
def State.newVer (s : State) : Nat × State := (s.version + 1, { s with version := s.version + 1 })

def isDirty (st : CohSt) : Bool := st == .m || st == .o || st == .w
/-- The entry `c` names the same word as `k` does at level `l`. -/
def sameWord (l : Nat) (c : Copy) (k : WKey) : Bool := if l ≤ 2 then c.key == k else c.key.pw == k.pw
/-- The entries in the subtree of `n` for a word, `n` included. -/
def State.entriesUnder (s : State) (n : Node) (k : WKey) : List Copy :=
  s.copies.filter (fun (c : Copy) => nodeUnder n c.node && (if c.node.level ≤ 2 then sameWord n.level c k else c.key.pw == k.pw))
/-- The copies with data in the subtree of `n`. -/
def State.dataUnder (s : State) (n : Node) (k : WKey) : List Copy :=
  (s.entriesUnder n k).filter (fun c => c.node.level ≤ 1 && c.st != .i && c.val.isSome)
/-- The newest version that the chain's nodes of the levels given resolve a word to (R170). -/
def State.needOf (s : State) (i : Issuer) (ls : List Nat) (k : WKey) : Nat :=
  ls.foldl (fun acc l => max acc (s.copyAt (chainNode i.core l) k).pf) 0

/-- One of several copies, by a free choice where they differ (log entry 10). -/
def pickCopy (fresh : Nat) (l : List Copy) : Option Copy :=
  match l with
  | [] => Option.none
  | [c] => some c
  | c :: rest =>
    if rest.all (fun x => x.val == c.val && x.bad == c.bad) then some c
    else l[Config.freeChoice fresh % l.length]?

/-- The dirty copies under `n` that no newer dirty copy of the same L1 and L2 replaces: the data that a recall brings (R182). -/
def State.dirtyUnder (s : State) (n : Node) (k : WKey) : List Copy :=
  let ds := (s.dataUnder n k).filter (fun c => isDirty c.st)
  ds.filter (fun c => !ds.any (fun d => c.ver < d.ver && (nodeUnder d.node c.node || nodeUnder c.node d.node)))

/-- A copy holds a write that a node below `n` has granted and `n` has not taken over (R183). -/
def State.unperformed (s : State) (n : Node) (k : WKey) (c : Copy) : Bool :=
  (s.entriesUnder n k).any (fun g => 0 < g.pf && g.node != n && (nodeUnder g.node c.node || nodeUnder c.node g.node))

/-- The newest of several copies. -/
def newest (l : List Copy) : Option Copy :=
  l.foldl (fun (acc : Option Copy) c =>
    match acc with
    | Option.none => some c
    | some a => if a.ver < c.ver then some c else some a) Option.none

/-! ### The home slice (R180, R192, R194, R344) -/

/-- Protection is in force (R343). -/
def Parity.on (p : Parity) : Bool := bit p.cfg 63 && 3 ≤ getBits p.cfg 48 5 && getBits p.cfg 48 5 ≤ 16
def Parity.g (p : Parity) : Nat := getBits p.cfg 48 5
def Parity.selfIdx (p : Parity) : Nat := getBits p.cfg 44 4
def Parity.lost (p : Parity) : Nat := getBits p.cfg 40 4
def Parity.degraded (p : Parity) : Bool := bit p.cfg 39
def Parity.rebuilding (p : Parity) : Bool := bit p.cfg 38
def Parity.baseFrame (p : Parity) : Nat := getBits p.reg 16 36
def Parity.rows (p : Parity) : Nat := getBits p.size 0 24
/-- The package of member `m`. -/
def Parity.member (p : Parity) (m : Nat) : Nat := getBits p.memb (4 * m) 4
/-- The stripe row of a byte of local HBM, if it lies in the region (R344). -/
def Parity.rowOf (p : Parity) (off : Nat) : Option Nat :=
  if p.on && p.baseFrame ≤ off / 65536 && off / 65536 < p.baseFrame + p.rows then some (off / 65536 - p.baseFrame) else none
/-- The parity member of a row. -/
def Parity.holder (p : Parity) (r : Nat) : Nat := r % p.g
/-- NEXTROW (R343). -/
def Parity.nextRow (p : Parity) : Nat := getBits p.prog 0 24
/-- The lost member's frame of a row has been rebuilt at the row's holder (R345). -/
def Parity.rebuilt (p : Parity) (r : Nat) : Bool := !p.rebuilding || r < p.nextRow || p.early.contains r
/-- The row has been restored to a replacement (R347). -/
def Parity.restored (p : Parity) (r : Nat) : Bool := p.restoring && r < p.nextRow
/-- A row has a parity frame (R345): its holder is not lost, and its lost frame does not stand in it. -/
def Parity.rowHasParity (p : Parity) (r : Nat) : Bool :=
  !p.degraded || p.restored r || (p.holder r != p.lost && !p.rebuilt r)
/-- The row of a KIND 1 word that names the lost member's data frame (R345). -/
def Parity.lostRow (p : Parity) (pw : PWord) : Option Nat :=
  if pw.kind = 1 ∧ p.degraded ∧ pw.peer = p.member p.lost then (p.rowOf pw.off).filter (fun r => p.holder r != p.lost) else none
/-- An access to a word waits for its row to be rebuilt (R345). -/
def State.rowWaits (s : State) (pw : PWord) : Bool := (s.parity.lostRow pw).any (fun r => !s.parity.rebuilt r)
/-- The word lies in a package that is declared departed, and in no frame that its parity group holds (R348). -/
def State.gone (s : State) (pw : PWord) : Bool := pw.kind == 1 && (s.peer pw.peer).departed && (s.parity.lostRow pw).isNone

/-- KIND of a word as its accesses see it: a word of a frame that this package holds for the lost member is reached through KIND 1
leaves alone, for no leaf may name a parity frame (R344, R345). -/
def State.leafKind (s : State) (pw : PWord) : Nat :=
  let p := s.parity
  if pw.kind = 0 && p.degraded && (p.rowOf pw.off).any (fun r => p.holder r == p.selfIdx && p.selfIdx != p.lost && p.rebuilt r
      && !p.restored r) then 1
  else pw.kind
/-- The level of an access of scope `sc` to a word (R170). -/
def State.levelOf (s : State) (i : Issuer) (sc : Scope) (pw : PWord) : Nat := scopeLevel i sc (s.leafKind pw)

/-- The slice that homes a byte of a package's HBM (R16). -/
def homeSliceOf (off : Nat) : Nat := Config.homeSlice (off / 128) % 128
/-- UNIT of a home slice: the stack of its base die (R341). -/
def homeUnit (off : Nat) : Nat := 2 ^ 14 + homeSliceOf off / 16

/-- The member index of a package. -/
def Parity.indexOf (p : Parity) (pkg : Nat) : Option Nat := (List.range p.g).find? (fun m => p.member m == pkg)
/-- The delta that a write at a package's home slice forms next for a holder, and the stream moved on (R248). -/
def State.nextDelta (s : State) (home holder off : Nat) (val : Word) : DeltaId × State :=
  let key := 2048 * home + 16 * homeSliceOf off + holder
  let seq := s.parity.nextSeq.at key 0
  let d : DeltaId := { home := home, slice := homeSliceOf off, holder := holder, seq := seq }
  (d, { s with parity := { s.parity with sent := s.parity.sent ++ [{ id := d, off := off, val := val }]
                                         nextSeq := s.parity.nextSeq.put key (seq + 1) } })

/-- A write of a word performed at the home on a data frame of the region sends its delta, also where the word stays as it
was (R194, R344). `spoils` says that its old data was lost (R342). -/
def State.sendDelta (s : State) (off : Nat) (xor new : Word) (spoils : Bool) : State :=
  match s.parity.rowOf off with
  | none => s
  | some r =>
    let p := s.parity
    if p.holder r == p.selfIdx || !p.rowHasParity r then s
    else
      let (d, s) := s.nextDelta s.pkg.toNat (p.member (p.holder r)) off new
      let m : Delta := { src := d.home, stream := d.slice, seq := d.seq, off := off, xor := leBytes 4 xor.toNat,
                         new := leBytes 4 new.toNat, spoils := spoils }
      (s.request d.holder (.delta d)).send (.delta m d.holder)

/-- A write of `x` to a peer's word on a data frame of the region: the peer's home slice forms the delta, and this package learns of
its acknowledgement (R194, log entry 17). -/
def State.peerDelta (s : State) (pw : PWord) (x : Word) : State :=
  let p := s.parity
  match p.rowOf pw.off, p.indexOf pw.peer with
  | some r, some m =>
    if p.holder r == m || !p.rowHasParity r then s
    else (s.nextDelta pw.peer (p.member (p.holder r)) pw.off x).2
  | _, _ => s

/-- The package directory's entry for a physical word. -/
def pkgNode : Node := { level := 5, idx := 0 }
/-- A word's name by its physical address alone. -/
def physName (pw : PWord) : WKey := { asid := 0, va := 0, pw := pw }

/-! ### The records of synchronisation lines (R185) -/

/-- The home as a node of the records. -/
def homeNode : Node := { level := 6, idx := 0 }
/-- Two words share a line frame. -/
def sameLine (a b : PWord) : Bool := a.kind == b.kind && a.peer == b.peer && a.off / 128 == b.off / 128
/-- Word 0 of the line frame of a word. -/
def lineName (k : WKey) : WKey :=
  { k with va := k.va / 128 * 128, pw := { k.pw with off := k.pw.off / 128 * 128 } }
/-- Some cache holds a word of a line. -/
def State.lineCached (s : State) (pw : PWord) : Bool :=
  s.copies.any (fun (c : Copy) => c.node.level ≤ 1 && c.st != .i && sameLine c.key.pw pw)

/-- The home's table of 65,536 records for each slice: the least recently set records of lines that no cache holds are dropped
where the slice's table is overfull. Records stand with the most recently set first. -/
def State.trimRecs (s : State) (pw : PWord) : State :=
  if s.syncs.length ≤ 65536 then s
  else
    let mine := fun (r : SyncRec) => r.node.level == 6 && homeSliceOf r.key.pw.off == homeSliceOf pw.off
      && r.key.pw.kind == pw.kind && r.key.pw.peer == pw.peer && !s.lineCached r.key.pw
    let extra := (s.syncs.filter mine).drop 65536
    { s with syncs := s.syncs.filter (fun r => !extra.contains r) }

/-- The most recent record of a line among the nodes that `src` names goes with the data that they give to the nodes `dst`, where
those have none set later: each copy carries a record of the last user (log entry 77). -/
def State.passRecs (s : State) (src : Node → Bool) (dst : List Node) (k : WKey) : State :=
  match s.syncs.find? (fun r => sameLine r.key.pw k.pw && src r.node) with
  | none => s
  | some r =>
    let later := s.syncs.takeWhile (fun x => x != r)
    let ns := dst.filter (fun n => n != r.node && !later.any (fun x => x.node == n && sameLine x.key.pw k.pw))
    { s with syncs := s.syncs.flatMap (fun x =>
        if x == r then r :: ns.map (fun n => { r with node := n })
        else if ns.contains x.node && sameLine x.key.pw k.pw then [] else [x]) }

/-- Every slice's table trimmed, after copies have gone. -/
def State.trimTable (s : State) : State :=
  if s.syncs.length ≤ 65536 then s
  else s.syncs.foldl (fun s r => if r.node.level = 6 then s.trimRecs r.key.pw else s) s

/-- The record of a line goes with a word that node `n` gives up to `dst`; `n` keeps its own while it holds a word of the line. -/
def State.moveRecs (s : State) (n : Node) (k : WKey) (dst : Node) : State :=
  let s := s.passRecs (fun m => m == n) [dst] k
  let s := if s.copies.any (fun (c : Copy) => c.node == n && c.st != .i && sameLine c.key.pw k.pw) then s
    else { s with syncs := s.syncs.filter (fun r => !(r.node == n && sameLine r.key.pw k.pw)) }
  s.trimRecs k.pw

/-- The copy that answers for a word where the package directory is exclusive or owner (R180), unless data that reached the home
later is newer (R183). -/
def State.homeOwner (s : State) (pw : PWord) : Option Copy :=
  let e := s.copyAt pkgNode (physName pw)
  if e.st == .m || e.st == .o || e.st == .e then
    newest ((s.dataUnder pkgNode (physName pw)).filter (fun c => isDirty c.st && decide (s.homeVer.at (pwKey pw) 0 ≤ c.ver)))
  else none

/-- The word at its home slice: an owner's data, else the home's own (R180). -/
def State.homeWord (s : State) (pw : PWord) : Word × Bool :=
  match s.homeOwner pw with
  | some c => (c.val.getD 0, c.bad)
  | Option.none => (memWord s.mem (pwKey pw), s.memBad.contains (pwKey pw))

/-- `n` bytes at the home, word by word. -/
def State.homeBytes (s : State) (kind peer off n : Nat) : List Byte :=
  let lo := off / 4 * 4
  let words := (List.range ((off % 4 + n + 3) / 4)).map (fun j =>
    (s.homeWord { kind := kind, peer := peer, off := lo + 4 * j }).1)
  ((words.flatMap (fun w => leBytes 4 w.toNat)).drop (off % 4)).take n

/-- A word of a data frame of this package's protected region (R344). -/
def State.isProtected (s : State) (pw : PWord) : Bool :=
  pw.kind == 0 && (s.parity.rowOf pw.off).any (fun r => s.parity.holder r != s.parity.selfIdx)

/-- The home's own data written, with its delta. A whole word that is written is no longer poisoned (R340), and where the data
it replaces was lost its delta says so (R342). -/
def State.homePut (s : State) (pw : PWord) (x : Word) (bad : Bool) : State :=
  let lost := s.memBad.contains (pwKey pw) && s.isProtected pw
  let s := if pw.kind = 0 then s.sendDelta pw.off (if lost then 0 else memWord s.mem (pwKey pw) ^^^ x) x lost
    else if pw.kind = 1 then s.peerDelta pw x else s
  { s with mem := memPutWord s.mem (pwKey pw) x
           memBad := if bad then addNat s.memBad (pwKey pw) else dropNat s.memBad (pwKey pw)
           parity := if lost then { s.parity with wanted := s.parity.wanted.filter (fun w => w.1 != pw.off)
                                                  failed := dropNat s.parity.failed pw.off } else s.parity }

/-- The dirty data that a recall brings to the home (R182): of copies at least as new as `need`, and of those whose write the home
has performed only what no later write there replaced. Where several arrive, any may be the last (R187). -/
def State.recalled (s : State) (need : Nat) (pw : PWord) : Option Copy :=
  pickCopy s.fresh ((s.dirtyUnder pkgNode (physName pw)).filter (fun c =>
    need ≤ c.ver && (decide (s.homeVer.at (pwKey pw) 0 ≤ c.ver) || s.unperformed pkgNode (physName pw) c)))

/-- The word on which a request builds that the home carries out: what a recall brings, or the home's own. -/
def State.homeBase (s : State) (need : Nat) (pw : PWord) : Word × Bool :=
  match s.recalled need pw with
  | some c => (c.val.getD 0, c.bad)
  | none => (memWord s.mem (pwKey pw), s.memBad.contains (pwKey pw))

/-- Recalled dirty data written at its home, where the home does not hold it already. -/
def State.takeRecalled (s : State) (need : Nat) (pw : PWord) : State :=
  match s.recalled need pw with
  | none => s
  | some c =>
    let s := { s with fresh := s.fresh + 1 }
    let old := s.homeVer.at (pwKey pw) 0
    if c.ver ≤ old ∧ (c.val.getD 0, c.bad) = (memWord s.mem (pwKey pw), s.memBad.contains (pwKey pw)) then s
    else
      let (v, s) := if old ≤ c.ver then (c.ver, s) else s.newVer
      let s := s.homePut pw (c.val.getD 0) c.bad
      { s with homeVer := s.homeVer.put (pwKey pw) v }

/-- Every copy of a word in the package recalled to its home, dirty data first (R182), with the record of its line: a write that
the home has not yet performed. `need` is the version that the requester's chain resolves the word to. -/
def State.recall (s : State) (pw : PWord) (need : Nat := 0) : State :=
  let s := (s.takeRecalled need pw).passRecs (fun _ => true) [homeNode] (physName pw)
  { s with copies := s.copies.filter (fun (c : Copy) => c.key.pw != pw) }.trimRecs pw

/-! ### What a request waits for at its home slice (R191, R192, R342) -/

/-- The peers that share a line of local HBM (R17). -/
def State.sharersOf (s : State) (pw : PWord) : List Nat :=
  if pw.kind != 0 then []
  else (List.range 16).filter (fun p => (s.sharers.at (pw.off / 128) 0).getLsbD p && !(s.peer p).departed)

/-- Peer `p` shares a line from now on, or no more. -/
def State.setSharer (s : State) (off p : Nat) (on : Bool) : State :=
  let v := s.sharers.at (off / 128) 0
  { s with sharers := s.sharers.put (off / 128) (if on then v ||| 1#16 <<< p else v &&& ~~~ (1#16 <<< p)) }

/-- A poisoned word of a protected frame whose rebuild has not ended (R342). A remote atomic waits only for a rebuild that is
scheduled already (R212). -/
def State.poisonWaits (s : State) (pw : PWord) (atomic : Bool := false) : Bool :=
  s.isProtected pw && s.memBad.contains (pwKey pw) && !s.parity.failed.contains pw.off
    && (!atomic || s.parity.wanted.any (fun w => w.1 == pw.off))

/-- The home has carried out a request for the word in this clock that R192 orders after one of this rank. -/
def State.homeLate (s : State) (rank : Nat) (pw : PWord) : Bool :=
  s.servedAt == s.clock && s.served.any (fun x => x.1 == pwKey pw && rank < x.2)

/-- The home arbiter's rank of a request by a Ranman port, and by an Ethernet port (R192). -/
def fabricRank (port : Nat) : Nat := 512 + min port 511
def hostRank (port : Nat) : Nat := 1024 + port

/-- The home carries out a request of a rank (R192): the package's own have their flat core index, those of Ranman port p have
512 + p, and those of Ethernet port p have 1024 + p. -/
def State.homeServes (s : State) (rank : Nat) (pw : PWord) : State :=
  { s with servedAt := s.clock, served := (pwKey pw, rank) :: (if s.servedAt = s.clock then s.served else []) }

/-- The home asks the peers that share a line to drop their copies (R191). -/
def State.askCopies (s : State) (pw : PWord) : State :=
  (s.sharersOf pw).foldl (fun (s : State) p =>
    let off := pw.off / 128 * 128
    if s.fabric.any (fun r => r.peer == p && r.what == .drop off) then s
    else (s.request p (.drop off)).send (.invalidate p s.pkg.toNat off)) s
/-- The home schedules the rebuild of a poisoned word for its reader (R342). -/
def State.askRebuild (s : State) (core : Option Nat) (pw : PWord) : State :=
  if s.poisonWaits pw && !s.parity.wanted.any (fun w => w.1 == pw.off) then
    { s with parity := { s.parity with wanted := s.parity.wanted ++ [(pw.off, core)] } }.send (.parityRead pw.off)
  else s
/-- The line of a peer's memory that an access asks for on the fabric (R244). -/
def accessOf (pw : PWord) : FabWhat := .access (pw.off / 128 * 128)
/-- An access to a peer's memory has not gone out yet: its request is made first, and then its answer waited for (R244, log entry 81). -/
def State.unasked (s : State) (pw : PWord) : Bool :=
  pw.kind == 1 && !s.gone pw && !s.fabric.any (fun r => r.peer == pw.peer && r.what == accessOf pw)
/-- A peer has answered an access to its memory. -/
def State.heard (s : State) (pw : PWord) : State := if pw.kind = 1 then s.answered pw.peer (accessOf pw) else s

/-- What a request that waits at a home asks for there: an access to a peer's memory goes out to it (R244); an ownership request asks
for the copies of the peers that share the line (R191), and then the rebuild of a poisoned word (R342). `core` is the requester. -/
def State.askWord (s : State) (core : Option Nat) (own : Bool) (pw : PWord) (who : FabBy := .other) : State :=
  if pw.kind = 1 then (if s.rowWaits pw || s.gone pw then s else s.request pw.peer (accessOf pw) who)
  else if own && !(s.sharersOf pw).isEmpty then s.askCopies pw else s.askRebuild core pw

/-- The home has written a word: the owner that its directory named, and the directories above it, are sharers of an old value from
now on. A write that the home has not performed stays with its holder. -/
def State.demote (s : State) (pw : PWord) : State :=
  let own := (s.copyAt pkgNode (physName pw)).st
  if own == .m || own == .o || own == .e then
    { s with copies := s.copies.map (fun (c : Copy) =>
        if c.key.pw = pw ∧ (c.st = CohSt.m ∨ c.st = CohSt.o ∨ c.st = CohSt.e)
            ∧ (c.node.level ≥ 2 ∨ !s.unperformed pkgNode (physName pw) c) then { c with st := CohSt.s } else c) }
  else s

/-- A write of a word at the home by a party outside the package, or by the home's own unit: dirty data that an owner
holds is merged first, clean copies stay (R23, R192). -/
def State.homeWrite (s : State) (pw : PWord) (f : Word → Word) (whole : Bool) : State :=
  let (x, bad) := s.homeWord pw
  let (v, s) := s.newVer
  let s := s.demote pw
  let s := s.updCopy pkgNode (physName pw) (fun c => { c with pf := v })
  let s := s.homePut pw (f x) (bad && !whole)
  { s with homeVer := s.homeVer.put (pwKey pw) v }

/-- A write of version `v` performed at the home, with its delta (R194). -/
def State.homeTakes (s : State) (pw : PWord) (x : Word × Bool) (v : Nat) : State :=
  let s := s.homePut pw x.1 x.2
  { s with homeVer := s.homeVer.put (pwKey pw) v }
/-- The home's own data brought to what it resolves the word to. -/
def State.writeHome (s : State) (pw : PWord) (v : Nat) : State := s.homeTakes pw (s.homeWord pw) v

/-! ### Reads (R181) -/

/-- The meeting level and supplier of a read by `i`: none when the home supplies it. The issuer's own L1 and L2 answer with
what they hold; a node above answers with a copy no older than the chain resolves the word to (R170, log entry 10). -/
def State.rdFindFrom (s : State) (i : Issuer) (k : WKey) : List Nat → Option (Nat × Copy)
  | [] => Option.none
  | l :: ls =>
    let need := if l ≤ 1 then s.needOf i (chainLevels i l) k else s.needOf i (chainLevels i 5) k
    let cands := (s.dataUnder (chainNode i.core l) k).filter (fun c => l = 0 || need ≤ c.ver)
    match pickCopy s.fresh cands with
    | some c => some (l, c)
    | Option.none => s.rdFindFrom i k ls

def State.rdFind (s : State) (i : Issuer) (k : WKey) : Option (Nat × Copy) := s.rdFindFrom i k (chainLevels i 5)

/-- The nodes below level `l` on the chain become sharers with the value read; a node that is dirty stays so. -/
def State.fillPath (s : State) (i : Issuer) (k : WKey) (l : Nat) (x : Word) (bad : Bool) (ver : Nat) : State :=
  (chainLevels i 5).foldl (fun s j =>
    if j < l then
      s.updCopy (chainNode i.core j) k (fun c =>
        { c with st := if c.st == .m then .o else if isDirty c.st then c.st else .s
                 val := if j ≤ 1 then some x else if j = 3 then c.val else Option.none
                 bad := if j = 3 then c.bad else bad, ver := if j = 3 then c.ver else ver })
    else s) s

/-- The supplier of a read that meets at level `l`, and the owners that name it below that node: M becomes O, and E becomes
S. -/
def State.supplied (s : State) (l : Nat) (c : Copy) : State :=
  ((List.range 6).filter (fun j => c.node.level ≤ j && (j < l || j = c.node.level))).foldl (fun s j =>
    s.updCopy (chainNode (c.node.idx * nodeSpan c.node.level) j) c.key (fun e =>
      { e with st := if e.st == .m then .o else if e.st == .e then .s else e.st })) s

/-- RD (R181): the word read by `i` and the level that supplied it. -/
def State.rd (s : State) (i : Issuer) (k : WKey) : (Word × Bool) × Nat × State :=
  let s' := { s with fresh := s.fresh + 1 }
  match s.rdFind i k with
  | some (l, c) =>
    let x := c.val.getD 0
    if l = i.lvl ∧ c.node = chainNode i.core l then ((x, c.bad), l, s')
    else ((x, c.bad), l, ((s'.supplied l c).fillPath i k l x c.bad c.ver).passRecs (fun n => n == c.node)
      (((chainLevels i 5).filter (fun j => j < l)).map (chainNode i.core)) k)
  | Option.none =>
    let (x, bad) := s.homeWord k.pw
    ((x, bad), 6, ((s'.heard k.pw).fillPath i k 6 x bad (s.homeVer.at (pwKey k.pw) 0)).passRecs (fun n => n == homeNode)
      ((chainLevels i 5).map (chainNode i.core)) k)

/-! ### Pushes and performing (R171, R183) -/

/-- One PUSH from the chain node of level `l` to its parent (R181): the parent takes the data as its newest. The stack
directory keeps what a die pushes to it (R352). -/
def State.pushStep (s : State) (i : Issuer) (l : Nat) (k : WKey) : State :=
  let data := if l = 2 then newest ((s.dataUnder (chainNode i.core l) k).filter (fun c => isDirty c.st)) else Option.none
  let s := s.updCopy (chainNode i.core l) k (fun c => { c with st := if c.st == .w then .o else c.st })
  if l ≥ 5 then s
  else s.updCopy (chainNode i.core (l + 1)) k (fun c =>
    let c := { c with st := if c.st == .m || c.st == .e then .m else .w }
    match data with
    | some d => { c with val := d.val, bad := d.bad, ver := d.ver }
    | Option.none => c)

/-- The dirty copies under `n` that an unperformed write of another branch does not hold become clean, where they are older
than `v` (R170): a later acquire removes them. -/
def State.cleanOlder (s : State) (i : Issuer) (top : Nat) (k : WKey) (v : Nat) : State :=
  let n := chainNode i.core top
  let under := s.entriesUnder n k
  let guards := under.filter (fun c => c.pf > 0 && c.node != n)
  let held := fun (c : Copy) => guards.any (fun g => nodeUnder g.node c.node || nodeUnder c.node g.node)
  let inChain := fun (c : Copy) => c.node == chainNode i.core c.node.level && i.lvl ≤ c.node.level
  { s with copies := s.copies.map (fun (c : Copy) =>
      if under.contains c && c.node != n && !inChain c && !held c && c.st != .i && !(c.node.level ≤ 1 && c.ver ≥ v)
      then { c with st := .s } else c) }

/-- Every W span of the chain below `top` pushed, from the lowest node upwards, and the newest version of the chain below
resolved at `top` (R170, R183). A write that arrives after another of the same word wins (R187). -/
def State.performWord (s : State) (i : Issuer) (top : Nat) (k : WKey) : State :=
  let ls := (chainLevels i 5).filter (fun l => l < top)
  let s := ls.foldl (fun s l => if (s.copyAt (chainNode i.core l) k).st == .w then s.pushStep i l k else s) s
  let q := s.needOf i ls k
  if q = 0 then s
  else
    let t := min top 5
    let old := (s.copyAt (chainNode i.core t) k).pf
    let (v, s) :=
      if old ≤ q ∨ ls.contains t then (q, s)
      else
        let (v, s) := s.newVer
        (v, { s with copies := s.copies.map (fun (c : Copy) =>
                       if sameWord 5 c k && c.ver == q && c.val.isSome then { c with ver := v } else c)
                     homeVer := if s.homeVer.at (pwKey k.pw) 0 = q then s.homeVer.put (pwKey k.pw) v else s.homeVer })
    let s := ls.foldl (fun s l => if l = t then s else s.updCopy (chainNode i.core l) k (fun c => { c with pf := 0 })) s
    let s := s.updCopy (chainNode i.core t) k (fun c => { c with pf := v })
    let s := s.cleanOlder i t k v
    if top ≥ 6 then s.writeHome k.pw v else s

/-- The words that the chain below `top` holds dirty or has not performed at `top`. -/
def State.chainWords (s : State) (i : Issuer) (top : Nat) : List WKey :=
  ((s.copies.filter (fun (c : Copy) => c.node.level < top && i.lvl ≤ c.node.level && c.node == chainNode i.core c.node.level
      && (c.st == .w || c.pf > 0) && c.key.pw.kind != 2)).map (fun c => c.key)).dedup

/-- The name under which a chain holds a physical word, where one of its lower nodes holds it: the name given, or that of
another page which maps the word. -/
def State.fullName (s : State) (i : Issuer) (k : WKey) : WKey :=
  let low := s.copies.filter (fun c => c.node.level ≤ 2 && c.node == chainNode i.core c.node.level)
  if low.any (fun c => c.key == k) then k
  else match low.find? (fun c => c.key.pw == k.pw) with
  | some c => c.key
  | Option.none => k

/-- The pushes of a release at level `top` (R171). -/
def State.pushAll (s : State) (i : Issuer) (top : Nat) : State :=
  (s.chainWords i top).foldl (fun s k => s.performWord i top (s.fullName i k)) s

/-- Acquire at level `top` (R184): clean copies of the issuer's L1, and from die scope on of its L2, are invalidated. Pool
copies stay (R193). -/
def State.acquire (s : State) (i : Issuer) (top : Nat) : State :=
  ({ s with copies := s.copies.filterMap (fun (c : Copy) =>
      if c.node.level < min top 2 && i.lvl ≤ c.node.level && c.node == chainNode i.core c.node.level
          && (c.st == .s || c.st == .e) && c.key.pw.kind != 2
      then (if c.pf = 0 then Option.none else some { c with st := .i, val := Option.none }) else some c) } : State).trimTable

/-! ### Ownership (R181, R182) -/

/-- The stopping node of an OWN at level `top`: the first node in M or E whose parent lies at that level or wider, else N_S;
6 is the home. -/
def State.stopLevel (s : State) (i : Issuer) (top : Nat) (k : WKey) : Nat :=
  ((chainLevels i 5).find? (fun l =>
    l < top && top ≤ l + 1 && ((s.copyAt (chainNode i.core l) k).st == .m || (s.copyAt (chainNode i.core l) k).st == .e))).getD top

/-- Every copy below the stopping node removed, and the chain made exclusive with the new value (R181). -/
def State.grant (s : State) (i : Issuer) (x : Nat) (k : WKey) (v : Word) (bad : Bool) : State :=
  let (ver, s) := s.newVer
  let out := if x ≥ 6 then s.entriesUnder pkgNode (physName k.pw) else s.entriesUnder (chainNode i.core x) k
  let s := { s with copies := s.copies.filter (fun (c : Copy) => !(out.contains c && !(x ≤ 5 && c.node == chainNode i.core x))) }
  (chainLevels i 5).foldl (fun s l =>
    if l < x then
      s.updCopy (chainNode i.core l) k (fun _ =>
        { node := chainNode i.core l, key := keyAt l k, st := .m, val := if l = i.lvl then some v else Option.none,
          bad := bad, ver := ver, pf := if x ≥ 6 && l = 5 then ver else 0 })
    else if l = x then
      s.updCopy (chainNode i.core l) k (fun c =>
        { c with st := if c.st == .e || c.st == .m then .m else .w
                 val := if l = i.lvl then some v else if l = 3 then c.val else Option.none
                 bad := if l = 3 then c.bad else bad, ver := if l = 3 then c.ver else ver, pf := ver })
    else s) s

/-- The dirty data that a stopping node of level `x` below the home recalls for an OWN (R182), no older than what the issuer's
chain resolves the word to. -/
def State.ownDirty (s : State) (i : Issuer) (x : Nat) (k : WKey) : Option Copy :=
  pickCopy s.fresh ((s.dirtyUnder (chainNode i.core x) k).filter (fun c => s.needOf i (chainLevels i x) k ≤ c.ver))

/-- The nodes from which a node of level `x`, or the home, collects the records of a line when it carries out an OWN. -/
def ownedNodes (i : Issuer) (x : Nat) (n : Node) : Bool := decide (x ≥ 6) || nodeUnder (chainNode i.core x) n
/-- The nodes of the chain that an OWN carried out at level `x` reaches. -/
def reachedNodes (i : Issuer) (x : Nat) : List Node :=
  ((chainLevels i 5).filter (fun l => l ≤ x)).map (chainNode i.core) ++ (if x ≥ 6 then [homeNode] else [])

/-- The value on which an OWN builds: a copy that the stopping node recalls, or what it reads by RD (R181, R182). -/
def State.ownBase (s : State) (i : Issuer) (x : Nat) (k : WKey) : (Word × Bool) × Option (Nat × Copy) :=
  if x ≥ 6 then (s.homeBase (s.needOf i (chainLevels i 5) k) k.pw, Option.none)
  else
    match s.ownDirty i x k with
    | some c => ((c.val.getD 0, c.bad), Option.none)
    | Option.none =>
      match s.rdFind i k with
      | some (l, c) => ((c.val.getD 0, c.bad), if l > x then some (l, c) else Option.none)
      | Option.none => (s.homeWord k.pw, Option.none)

/-- The path of the read that a stopping node of level `x` makes first: the nodes above it become sharers. -/
def State.fillAbove (s : State) (i : Issuer) (x l : Nat) (k : WKey) (v : Word) (bad : Bool) (ver : Nat) : State :=
  s.fillPath { i with lvl := max i.lvl (x + 1) } k l v bad ver

/-- OWN at level `top` with a write, carried out at level `x` (R181): `f` gives the new word from the old, `whole` says that it
replaces every byte; another write first reads by RD where the stopping node has no copy. The result is the old word with its
poison. -/
def State.ownAt (s : State) (i : Issuer) (top x : Nat) (k : WKey) (f : Word → Word) (whole : Bool) : (Word × Bool) × State :=
  let ((v, bad), sup) := s.ownBase i x k
  let s := { s with fresh := s.fresh + 1 }
  let s := if whole || x ≥ 6 then s
    else match sup with
    | some (l, c) => (s.supplied l c).fillAbove i x l k v bad c.ver
    | Option.none =>
      if (s.dataUnder (chainNode i.core x) k).isEmpty then s.fillAbove i x 6 k v bad (s.homeVer.at (pwKey k.pw) 0) else s
  let s := (s.passRecs (ownedNodes i x) (reachedNodes i x) k).grant i x k (f v) (bad && !whole)
  let s := if x ≥ 6 && k.pw.kind = 0 then s.homeServes i.core k.pw else s
  ((v, bad), (if top ≥ 6 then (s.heard k.pw).homeTakes k.pw (f v, bad && !whole) s.version else s).trimTable)

/-- OWN carried out at level `x` without a write (R179, R223): every other copy below the stopping node is recalled or invalidated.
The data stays the version it is. Where it is dirty the chain holds it as after an OWN with a write, together with the newest write
granted under the node; where it is clean the chain holds it as a read leaves it, so that an acquire still removes it and a release
pushes nothing (log entry 78). -/
def State.ownOnly (s : State) (i : Issuer) (x : Nat) (k : WKey) : State :=
  let top := chainNode i.core x
  let s := s.passRecs (ownedNodes i x) (reachedNodes i x) k
  if x ≥ 6 then ((s.recall k.pw (s.needOf i (chainLevels i 5) k)).rd i k).2.2
  else match s.ownDirty i x k with
  | some c =>
    let out := s.entriesUnder top k
    let pf := out.foldl (fun m e => max m e.pf) 0
    let s := { s with fresh := s.fresh + 1, copies := s.copies.filter (fun e => !(out.contains e && e.node != top)) }
    (chainLevels i 5).foldl (fun (s : State) l =>
      if l < x then s.updCopy (chainNode i.core l) k (fun e =>
        { e with st := .m, val := if l = i.lvl then c.val else Option.none, bad := c.bad, ver := c.ver })
      else if l = x then s.updCopy top k (fun e =>
        { e with st := if e.st == .e || e.st == .m then .m else if e.st == .o && pf == e.pf then .o else .w
                 val := if x = i.lvl then c.val else if x = 3 then e.val else Option.none
                 bad := if x = 3 then e.bad else c.bad, ver := if x = 3 then e.ver else c.ver, pf := pf })
      else s) s
  | Option.none =>
    let s := (s.rd i k).2.2
    let out := (s.entriesUnder top k).filter (fun c => !(c.node == chainNode i.core c.node.level && i.lvl ≤ c.node.level))
    { s with copies := s.copies.filterMap (fun e =>
        if !out.contains e then some e else if e.pf = 0 then Option.none else some { e with st := .i, val := Option.none }) }

/-- OWN at level `top` with a write (R181). -/
def State.own (s : State) (i : Issuer) (top : Nat) (k : WKey) (f : Word → Word) (whole : Bool) : (Word × Bool) × State :=
  s.ownAt i top (s.stopLevel i top k) k f whole

/-! ### The loss of a die (R351) -/

/-- A physical word is named by an entry that a stack directory has still to resolve. -/
def State.deadHolds (s : State) (pw : PWord) : Bool :=
  s.dies.any (fun p => p.2.spans.any (fun d =>
    d.pw.kind == pw.kind && d.pw.peer == pw.peer && d.pw.off ≤ pw.off && pw.off < d.pw.off + 4 * d.words))

/-- An access waits: for its row to be rebuilt (R345), at a stack directory for an entry that names a failed die (R351), or at
its home for a rebuild (R342), the peers that share its line (R191) or its turn (R192). A read, or an OWN at the level given,
that ends below goes on, but for a write at system scope, which is performed at the home (R194). `atomic` marks an atomic: at
system scope the home carries it out (R212), where it waits only for a rebuild scheduled already, or for one that dirty data
recalled there has to wait for. With `asks` it waits also for its own request to a peer (R244). -/
def State.stopped (s : State) (i : Issuer) (own : Option Nat) (k : WKey) (atomic : Bool := false) (asks : Bool := true) : Bool :=
  let from_ := match s.rdFind i k with
    | some (l, _) => l
    | Option.none => 6
  let stop := (own.map (fun top => s.stopLevel i top k)).getD 0
  let remote := atomic && own == some 6
  let lvl := if remote then 6 else max from_ stop
  s.rowWaits k.pw || (s.deadHolds k.pw && decide (lvl ≥ 3))
    || (if remote then s.poisonWaits k.pw true || (s.poisonWaits k.pw && !(s.dirtyUnder pkgNode (physName k.pw)).isEmpty)
        else (decide (lvl ≥ 6) || own == some 6) && s.poisonWaits k.pw)
    || (own == some 6 && !(s.sharersOf k.pw).isEmpty) || ((remote || decide (stop ≥ 6)) && s.homeLate i.core k.pw)
    || (asks && (decide (lvl ≥ 6) || own == some 6) && s.unasked k.pw)
/-- An access of a stream, a command or an engine waits. -/
def State.waits (s : State) (i : Issuer) (own : Option Nat) (k : WKey) (atomic : Bool := false) : Bool := s.stopped i own k atomic

/-- Requests of the executing stream, as issuer `i`, that wait ask their homes for what they wait for. -/
def State.askFor (s : State) (i : Issuer) (own : Bool) (ks : List WKey) : State :=
  let who : FabBy := .stream s.cur.id s.cur.c.pc
  ks.foldl (fun s k => s.askWord (some i.core) own k.pw who) s

/-- A word of the weight store. The portion of a failed die gives no value (R27, log entry 27). -/
def State.weightWord (s : State) (pw : PWord) : Word × Bool :=
  if (s.die (pw.off / 2 ^ 29 % 16)).failed then (BitVec.ofNat 32 (Config.freeChoice (s.fresh + pw.off)), false)
  else (memWord s.mem (pwKey pw), s.memBad.contains (pwKey pw))

/-! ### Pool memory (R25, R193, R249, R250) -/

/-- The port of a pool address. -/
def poolPort (off : Nat) : Nat := off / 2 ^ 43 % 4
/-- Some extent of its port covers a pool address. -/
def State.extentAt (s : State) (off : Nat) : Bool :=
  s.extents.any (fun e => e.port == poolPort off && e.base ≤ off % 2 ^ 43 && off % 2 ^ 43 < e.base + e.size)

/-- A word written to the device. Data whose extent was released is discarded and counted (R250). -/
def State.poolPut (s : State) (pw : PWord) (x : Word) (bad : Bool) : State :=
  if s.extentAt pw.off then
    { s with mem := memPutWord s.mem (pwKey pw) x
             memBad := if bad then addNat s.memBad (pwKey pw) else dropNat s.memBad (pwKey pw) }
  else { s with portErrors := s.portErrors.put (poolPort pw.off) (s.portErrors.at (poolPort pw.off) 0 + 1) }

/-- The copy of a pool word in the issuer's L1 or L2. -/
def State.poolCopy (s : State) (i : Issuer) (k : WKey) : Option Copy :=
  ((chainLevels i 1).map (fun l => s.copyAt (chainNode i.core l) k)).find? (fun c => c.st != .i && c.val.isSome)

/-- A pool word read through the issuer's L1 and L2, which keep a copy. -/
def State.poolRd (s : State) (i : Issuer) (k : WKey) : (Word × Bool) × State :=
  let (x, bad) := match s.poolCopy i k with
    | some c => (c.val.getD 0, c.bad)
    | Option.none => (memWord s.mem (pwKey k.pw), s.memBad.contains (pwKey k.pw))
  ((x, bad), (chainLevels i 1).foldl (fun s l => s.updCopy (chainNode i.core l) k (fun c =>
    if c.st == .i then { c with st := .s, val := some x, bad := bad } else c)) s)

/-- A pool word written in the issuer's own cache. -/
def State.poolWr (s : State) (i : Issuer) (k : WKey) (f : Word → Word) (whole : Bool) : State :=
  let ((x, bad), _) := s.poolRd i k
  s.updCopy (chainNode i.core i.lvl) k (fun c => { c with st := .m, val := some (f x), bad := bad && !whole })

/-- CWB of a pool word: the L2's dirty data, then the L1's, goes to the device, and the copies become clean. -/
def State.poolCwb (s : State) (i : Issuer) (k : WKey) : State :=
  (chainLevels i 1).reverse.foldl (fun s l =>
    let c := s.copyAt (chainNode i.core l) k
    if isDirty c.st then
      let s := s.poolPut k.pw (c.val.getD 0) c.bad
      let s := s.setCopy { c with st := .s }
      if l = 0 then s.updCopy (chainNode i.core 1) k (fun e => if e.st == .i then e else { e with val := c.val, bad := c.bad })
      else s
    else s) s

/-- The copies of a pool word in the issuer's L1 and L2 dropped. -/
def State.poolDrop (s : State) (i : Issuer) (k : WKey) : State :=
  (chainLevels i 1).foldl (fun s l => s.setCopy (Copy.none (chainNode i.core l) k)) s

/-! ### Evictions (R181, R183) -/

/-- Directories above a die's caches cleared where no copy below them is left, or none dirty. -/
def State.settle (s : State) (i : Issuer) (k : WKey) : State :=
  [2, 3, 4, 5].foldl (fun s l =>
    let n := chainNode i.core l
    let data := (s.dataUnder n k).filter (fun c => c.node != n)
    if data.isEmpty then s.updCopy n k (fun c => { c with st := .i })
    else if data.any (fun c => isDirty c.st) then s
    else s.updCopy n k (fun c => { c with st := if c.st == .w || c.st == .o then .s else if c.st == .m then .e else c.st })) s

/-- Eviction of a word from an L1 (R181): dirty data goes to the L2. DESIGN CHOICE, log entry 79: R181 names no state for the L2
that takes it; E and M become M, O stays O, and every other state becomes W, as for an OWN without a push. -/
def State.evictL1 (s : State) (core : Nat) (k : WKey) : State :=
  let c := s.copyAt { level := 0, idx := core } k
  let n := chainNode core 1
  if c.st == .i then s
  else
    let s := s.setCopy { c with st := .i, val := Option.none }
    let s := s.moveRecs c.node k n
    if isDirty c.st && c.val.isSome then
      let (v, s) := s.newVer
      s.updCopy n k (fun e => { e with st := if e.st == .e || e.st == .m then .m else if e.st == .o then .o else .w
                                       val := c.val, bad := c.bad, ver := v, pf := v })
    else s

/-- Eviction of a word from an L2, with the L1 copies it tracks (R181): dirty data goes to the home, or to the pool
device. -/
def State.evictL2 (s : State) (cl : Nat) (k : WKey) : State :=
  let s := [0, 1, 2, 3].foldl (fun s j => s.evictL1 (4 * cl + j) k) s
  let c := s.copyAt { level := 1, idx := cl } k
  if c.st == .i then s
  else
    let s := s.setCopy { c with st := .i, val := Option.none }
    let s := s.moveRecs c.node k homeNode
    let s := match c.val with
      | some x =>
        if isDirty c.st then
          let (v, s) := s.newVer
          let s := if k.pw.kind = 2 then s.poolPut k.pw x c.bad else s.homePut k.pw x c.bad
          { s with homeVer := s.homeVer.put (pwKey k.pw) v }
        else s
      | Option.none => s
    s.settle { core := 4 * cl, lvl := 1 } k

/-- Eviction of a word by any node: every cache under it gives its data up. -/
def State.evictNode (s : State) (n : Node) (k : WKey) : State :=
  let es := (s.entriesUnder n k).filter (fun c => c.node.level ≤ 1)
  let s := if n.level = 0 then s.evictL1 n.idx k
    else es.foldl (fun s c => s.evictL2 (c.node.idx * nodeSpan c.node.level / 4) c.key) s
  if n.level ≥ 2 then s.updCopy n k (fun c => { c with st := .i }) else s

/-- A node gives a word up; dirty data goes home, where it waits for the rebuild of its word (R342). -/
def State.evictWord (s : State) (n : Node) (w : WKey) : State :=
  if n.level ≥ 1 && s.poisonWaits w.pw && (s.dataUnder n w).any (fun c => isDirty c.st) then s.askRebuild none w.pw
  else s.evictNode n w

/-! ### Spans (R179, R183) -/

/-- The words of a span. -/
def SpanRec.keys (r : SpanRec) : List WKey :=
  (List.range r.words).map (fun j =>
    keyAt r.node.level { r.key with va := r.key.va + 4 * j, pw := { r.key.pw with off := r.key.pw.off + 4 * j } })
/-- The node still holds some word of a span. -/
def State.spanHeld (s : State) (r : SpanRec) : Bool := r.keys.any (fun k => (s.copyAt r.node k).st != .i)

/-- A node uses the span of these words. It tracks 8 spans of a frame: for a ninth it evicts the least recently used one; a word of
it whose dirty data has to wait for a rebuild at its home goes when it no longer has to (R342). -/
def State.trackSpan (s : State) (n : Node) (ks : List WKey) : State :=
  match ks with
  | [] => s
  | k :: _ =>
    let r : SpanRec := { node := n, key := keyAt n.level k, words := ks.length }
    if !s.spanHeld r then s
    else
      let mine := fun (x : SpanRec) => x.node == n && sameLine x.key.pw k.pw
      let here := s.spans.filter (fun x => mine x && x != r && s.spanHeld x)
      let kept := r :: here.take 7
      let s := (here.drop 7).foldl (fun s x => x.keys.foldl (fun s w =>
        if kept.any (fun y => y.keys.contains w) || (s.copyAt n w).st == .i then s else s.evictWord n w) s) s
      { s with spans := kept ++ (here.drop 7).filter s.spanHeld ++ s.spans.filter (fun x => !mine x) }

/-! ### The scope checker (R185) -/

/-- The party that an issuer is. -/
def State.partyOf (s : State) (i : Issuer) : Party :=
  if i.lvl = 0 then .core s.pkg.toNat i.core else .cluster s.pkg.toNat (i.core / 4)

/-- A party lies in the subtree of N_S of an access by `i` at level `top`. -/
def State.partyInside (s : State) (i : Issuer) (top : Nat) (p : Party) : Bool :=
  if top ≥ 6 then true
  else match p with
    | .host => false
    | .core k c => k == s.pkg.toNat && nodeUnder (chainNode i.core top) { level := 0, idx := c }
    | .cluster k c => k == s.pkg.toNat && nodeUnder (chainNode i.core top) { level := 1, idx := c }

/-- The last user that a node records for a line. -/
def State.recordAt (s : State) (n : Node) (k : WKey) : Option SyncRec :=
  s.syncs.find? (fun r => r.node == n && sameLine r.key.pw k.pw)

/-- A line has been touched by a synchronising access. -/
def State.isSyncLine (s : State) (k : WKey) : Bool := s.syncs.any (fun r => sameLine r.key.pw k.pw)

/-- The records of the nodes given set to a user. -/
def State.setRecs (s : State) (ns : List Node) (k : WKey) (p : Party) (sc : Scope) : State :=
  let rest := s.syncs.filter (fun r => !(ns.contains r.node && sameLine r.key.pw k.pw))
  let recs := ns.map (fun n => ({ node := n, key := lineName k, user := p, scope := sc } : SyncRec))
  let s := { s with syncs := recs ++ rest }
  s.trimRecs k.pw

/-- The node where a synchronising read of a word meets its data, and its level. -/
def State.meetRd (s : State) (i : Issuer) (k : WKey) : Nat × Node :=
  match s.rdFind i k with
  | some (l, c) => (l, c.node)
  | Option.none => (6, homeNode)

/-- The level at which an OWN on a synchronisation line is carried out (R185): an OWN that would turn S or O into W climbs to
the lowest node whose subtree holds every copy of the line. -/
def State.meetOwnLevel (s : State) (i : Issuer) (top : Nat) (k : WKey) : Nat :=
  let x := s.stopLevel i top k
  let st := (s.copyAt (chainNode i.core x) k).st
  if x ≤ 5 && (st == .s || st == .o) && s.isSyncLine k then
    let holders := (s.copies.filter (fun (c : Copy) => sameLine c.key.pw k.pw && c.st != .i)).map (fun c => c.node)
    (((chainLevels i 5).filter (fun l => x ≤ l)).find? (fun l => holders.all (fun h => nodeUnder (chainNode i.core l) h))).getD 6
  else x

/-- The meeting node of a synchronising access to a word: a read, or an OWN that may first read. -/
def State.meet (s : State) (i : Issuer) (top : Nat) (k : WKey) (own whole : Bool) : Nat × Node :=
  if !own then s.meetRd i k
  else
    let x := s.meetOwnLevel i top k
    if x ≥ 6 then (6, homeNode)
    else if !whole && (s.dataUnder (chainNode i.core x) k).isEmpty then s.meetRd i k
    else (x, chainNode i.core x)

/-- The highest of the meeting nodes of the words of one request. -/
def topMeet : List (Nat × Node) → Nat × Node
  | [] => (6, homeNode)
  | m :: l => l.foldl (fun acc x => if acc.1 < x.1 then x else acc) m

/-- The check of one request on a line (R185): its words `ks` in one frame, the checker on or off. None is class 5. -/
def State.checkSync (s : State) (i : Issuer) (top : Nat) (sc : Scope) (ks : List WKey) (own whole on : Bool) : Option State :=
  match ks with
  | [] => some s
  | k :: _ =>
    let ms := ks.map (fun k => s.meet i top k own whole)
    let m := topMeet ms
    let n := if m.1 ≥ 6 then homeNode else m.2
    let fail := on && (match s.recordAt n k with
      | some r => !s.partyInside i top r.user
      | Option.none => false)
    if fail then Option.none
    else
      let reached := ((chainLevels i 5).filter (fun l => l ≤ m.1)).map (fun l => chainNode i.core l)
      some (s.setRecs (if reached.contains n then reached else reached ++ [n]) k (s.partyOf i) sc)

end Sys2Proof.Machine
end

