-- ==== Sys2Proof/Machine/Xlate.lean ====
section
/-!
DEFINITION. Translation: the address-space table (R304), the walk (R307 to R309), the checks of a leaf (R22, R310, R344),
the translation caches (R311) and synonyms (R313).
-/

namespace Sys2Proof.Machine

/-- The fault kinds of R196. -/
def kNOTMAPPED : Nat := 1
def kNONCANON : Nat := 2
def kMISALIGN : Nat := 3
def kREADONLY : Nat := 4
def kPRIV : Nat := 5
def kKIND : Nat := 6
def kWSWRITE : Nat := 7
def kWRONGKIND : Nat := 8
def kSYNONYM : Nat := 9
def kRECLAIMED : Nat := 10
def kSCRATCH : Nat := 11

/-- Bits [63:56] of a memory address equal bit 56 (R195, R307). -/
def canonical (va : Dword) : Bool := va.toNat / 2 ^ 56 == 0 || va.toNat / 2 ^ 56 == 255

/-- The physical byte of entry `a` of the address-space table (R304). -/
def State.astEntry (s : State) (a : BitVec 16) : Nat := getBits s.fe.astbase 12 40 * 4096 + 32 * a.toNat
/-- `n` bytes of local HBM at its home, as a number. -/
def State.hbmNat (s : State) (off n : Nat) : Nat := leNat (s.homeBytes 0 0 off n)
/-- ROOT, HBASE, AFLAGS, STKN, STKSZ and STKBASE of an address space (R304). -/
def State.astRoot (s : State) (a : BitVec 16) : Nat := s.hbmNat (s.astEntry a) 8
def State.astHbase (s : State) (a : BitVec 16) : Dword := BitVec.ofNat 64 (s.hbmNat (s.astEntry a + 8) 8)
def State.astFlags (s : State) (a : BitVec 16) : Nat := s.hbmNat (s.astEntry a + 16) 1
def State.astStkn (s : State) (a : BitVec 16) : Nat := s.hbmNat (s.astEntry a + 17) 3
def State.astStksz (s : State) (a : BitVec 16) : Nat := s.hbmNat (s.astEntry a + 20) 4
def State.astStkbase (s : State) (a : BitVec 16) : Nat := s.hbmNat (s.astEntry a + 24) 8

/-- The index of a virtual address at a level, and the size that a leaf there maps (R307). -/
def walkIndex (va : Dword) (lvl : Nat) : Nat :=
  if lvl = 3 then getBits va 43 14 else if lvl = 2 then getBits va 30 13 else if lvl = 1 then getBits va 21 9
  else getBits va 16 5
def pageSize (lvl : Nat) : Nat := if lvl = 2 then 2 ^ 30 else if lvl = 1 then 2 ^ 21 else 2 ^ 16

/-- The bits that R308 requires zero are zero, for a leaf at `lvl` or a table entry. The next table is aligned (R307). -/
def entryOk (p : Dword) (lvl : Nat) : Bool :=
  if bit p 1 then
    getBits p 52 5 == 0 && getBits p 7 9 == 0
      && (if lvl = 2 then getBits p 16 14 == 0 else if lvl = 1 then getBits p 16 5 == 0 else true)
  else getBits p 52 12 == 0 && getBits p 2 6 == 0
      && (if lvl = 3 then getBits p 8 8 == 0 else if lvl = 2 then getBits p 8 4 == 0 else true)

/-- The walk from level `lvl` down (R309): a leaf with the level that holds it. -/
def State.walkFrom (s : State) (va : Dword) : Nat → Nat → Option (Dword × Nat)
  | t, lvl =>
    let p : Dword := BitVec.ofNat 64 (s.hbmNat (t + 8 * walkIndex va lvl) 8)
    if !bit p 0 || !entryOk p lvl || (lvl == 3 && bit p 1) || (lvl == 0 && !bit p 1) then none
    else if bit p 1 then some (p, lvl)
    else match lvl with
      | 0 => none
      | l + 1 => s.walkFrom va (getBits p 8 44 * 256) l

/-- Walk (R309). -/
def State.walk (s : State) (asid : BitVec 16) (va : Dword) : Option (Dword × Nat) :=
  let root := s.astRoot asid
  if root % 2 = 0 then none else s.walkFrom va (root / 2 ^ 17 % 2 ^ 35 * 2 ^ 17) 3

/-- What kind of access is translated. `fine` marks the accesses that may name KIND 4: a scalar load or store (R22). -/
structure Acc where
  write : Bool := false
  atomic : Bool := false
  fetch : Bool := false
  fine : Bool := false
  weight : Bool := false
  deriving DecidableEq, Repr

/-- A kernel is running. -/
def State.kernelsRun (s : State) : Bool := s.launches.any (fun p => !p.2.complete)

/-- The PROT bit agrees with the protected region (R344). -/
def State.protOk (s : State) (prot : Bool) (kind base size : Nat) : Bool :=
  if kind != 0 then !prot
  else
    let p := s.parity
    let first := base / 65536
    let n := size / 65536
    let meets := p.on && first < p.baseFrame + p.rows && p.baseFrame < first + n
    if prot then
      match p.rowOf base with
      | some r => size == 65536 && p.holder r != p.selfIdx
      | none => false
    else !meets

/-- The units of the KIND 4 space that the spec gives registers (R145, R272, R328, R343). DESIGN CHOICE, log entry 25: an
address whose unit is none of these lies beyond the capacity of the space and is refused with kind KIND (R22). -/
def deviceUnit (u : Nat) : Bool := u == 1 || u == 2 || u == 3 || (0x100 ≤ u && u ≤ 0x17F)

/-- KIND and physical address are ones that R21 and R22 allow. -/
def State.kindOk (s : State) (acc : Acc) (leaf : Dword) (size off : Nat) : Bool :=
  let kind := getBits leaf 57 3
  let peer := getBits leaf 60 4
  let base := getBits leaf 16 36 * 65536
  (kind ≤ 4) && s.protOk (bit leaf 6) kind base size
    && (if kind = 1 then peer != s.pkg.toNat && peer ≤ s.podn.toNat else true)
    && (if kind ≤ 1 then off < 2 ^ 39 else if kind = 2 then off < 2 ^ 45 else if kind = 3 then off < 2 ^ 33 else deviceUnit (off / 2 ^ 24))
    && (if kind = 4 then acc.fine else true)
    && (if acc.atomic then kind ≤ 1 else true)

/-- The checks of R310 on a leaf, in order: the first that fails gives the fault kind. -/
def State.leafFault (s : State) (acc : Acc) (priv : Bool) (leaf : Dword) (size off : Nat) : Option Nat :=
  let kind := getBits leaf 57 3
  if !priv && (!bit leaf 4 || (kind == 4 && acc.fine)) then some kPRIV
  else if acc.fetch && bit leaf 3 then some kPRIV
  else if acc.write && bit leaf 2 then some kREADONLY
  else if !s.kindOk acc leaf size off then some kKIND
  else if acc.write && kind == 3 && s.kernelsRun then some kWSWRITE
  else if acc.weight && kind != 3 then some kWRONGKIND
  else none

/-- A translation-cache entry serves an access (R311). -/
def tlbHit (stack : Nat) (asid : BitVec 16) (va : Dword) (e : Tlb) : Bool :=
  e.stack == stack && (e.glob || e.asid == asid) && e.base ≤ va.toNat && va.toNat < e.base + e.size

/-- The leaf of a virtual address through the stack's translation cache, filled on a miss. -/
def State.lookup (s : State) (stack : Nat) (asid : BitVec 16) (va : Dword) : Option (Dword × Nat) × State :=
  match s.tlb.find? (tlbHit stack asid va) with
  | some e => (some (e.leaf, e.size), s)
  | none =>
    match s.walk asid va with
    | none => (none, s)
    | some (leaf, lvl) =>
      let size := pageSize lvl
      let e : Tlb := { stack := stack, asid := asid, glob := bit leaf 5, base := va.toNat / size * size, size := size, leaf := leaf }
      (some (leaf, size), { s with tlb := e :: s.tlb })

/-- The frame is held in some L1 or L2 under another virtual frame of the same ASID (R313). DESIGN CHOICE, log entry 82: the coherent
frames, of KIND 0 and 1, alone are compared. -/
def State.synonym (s : State) (asid : BitVec 16) (va : Dword) (pw : PWord) : Bool :=
  (pw.kind == 0 || pw.kind == 1) && s.copies.any (fun c =>
    c.node.level ≤ 1 && c.st != .i && c.key.asid == asid.toNat && c.key.pw.kind == pw.kind && c.key.pw.peer == pw.peer
      && c.key.pw.off / 65536 == pw.off / 65536 && c.key.va / 65536 != va.toNat / 65536)

/-- The home of a word that names the lost member's frame: once its row is rebuilt, the row's holder (R345), until the row is
restored to a replacement (R347). -/
def State.redirect (s : State) (pw : PWord) : PWord :=
  let p := s.parity
  match p.lostRow pw with
  | none => pw
  | some r =>
    if !p.rebuilt r || p.restored r then pw
    else if p.holder r = p.selfIdx then { kind := 0, peer := 0, off := pw.off }
    else { pw with peer := p.member (p.holder r) }

/-- The physical word that a leaf of a page of `size` bytes names for an address, at the home where it stands now. -/
def State.leafWord (s : State) (leaf : Dword) (size : Nat) (va : Dword) : PWord :=
  let kind := getBits leaf 57 3
  s.redirect { kind := kind, peer := if kind = 1 then getBits leaf 60 4 else 0
               off := (getBits leaf 16 36 * 65536 + va.toNat % size) / 4 * 4 }

/-- The translation of one byte: the physical word that holds it and the state after, or the fault kind. -/
def State.translate (s : State) (stack : Nat) (asid : BitVec 16) (priv : Bool) (acc : Acc) (va : Dword) :
    Except Nat PWord × State :=
  match s.lookup stack asid va with
  | (none, s) => (.error kNOTMAPPED, s)
  | (some (leaf, size), s) =>
    let off := getBits leaf 16 36 * 65536 + va.toNat % size
    match s.leafFault acc priv leaf size off with
    | some k => (.error k, s)
    | none =>
      let pw := s.leafWord leaf size va
      if s.synonym asid va pw then (.error kSYNONYM, s) else (.ok pw, s)

/-- A pool word that no extent covers: an access that reaches the port is refused with kind RECLAIMED (R249). -/
def State.reclaimed (s : State) (pw : PWord) : Bool := pw.kind == 2 && !s.extentAt pw.off

/-- The word that the issuer's L1 or L2 holds for a virtual address, with the leaf that it was granted under (R311). -/
def State.heldWord (s : State) (i : Issuer) (asid : BitVec 16) (va : Dword) : Option (Held × PWord) :=
  (chainLevels i 1).findSome? (fun l =>
    match s.copies.find? (fun (c : Copy) => c.node == chainNode i.core l && c.st != .i && c.key.asid == asid.toNat
        && c.key.va == va.toNat / 4 * 4) with
    | none => none
    | some c => (s.held.find? (fun h => h.node == c.node && h.asid == c.key.asid && h.va == c.key.va)).map (fun h => (h, c.key.pw)))

/-- The permission that the issuer's L1 and L2 keep with a word from here on. -/
def State.noteHeld (s : State) (i : Issuer) (asid : BitVec 16) (va : Dword) (leaf : Dword) (size : Nat) : State :=
  let ns := (chainLevels i 1).map (chainNode i.core)
  let v := va.toNat / 4 * 4
  { s with held := ns.map (fun n => { node := n, asid := asid.toNat, va := v, leaf := leaf, size := size })
             ++ s.held.filter (fun h => !(ns.contains h.node && h.asid == asid.toNat && h.va == v)) }

/-- A held word serves an access under its permission (R311), while its page names the word where it was held (R345, R347). -/
def State.heldServes (s : State) (acc : Acc) (priv : Bool) (va : Dword) (x : Held × PWord) : Bool :=
  (s.leafFault acc priv x.1.leaf x.1.size (getBits x.1.leaf 16 36 * 65536 + va.toNat % x.1.size)).isNone
    && s.leafWord x.1.leaf x.1.size va == x.2

/-- The name of a word in the tree. -/
def wordName (asid : BitVec 16) (va : Dword) (pw : PWord) : WKey :=
  { asid := asid.toNat, va := va.toNat / 4 * 4, pw := pw }

/-- An address lies in the weight window of a stream (R201). -/
def inWindow (wswin va : Dword) : Bool :=
  let n := getBits wswin 0 4
  let base := getBits wswin 30 27 * 2 ^ 30
  let a := va.toNat % 2 ^ 57
  n != 0 && base ≤ a && a < base + n * 2 ^ 30

end Sys2Proof.Machine
end

