-- ==== Sys2Proof/Machine/Device.lean ====
section
/-!
DEFINITION. The device registers of the KIND 4 space: the front end (R272, R277, R304, R341), Crown (R328), the fabric
manager's parity registers (R343) and the clusters (R145, R166). A write follows the Written by column (R5).
-/

namespace Sys2Proof.Machine

/-- FWSTAT: FAILS and ACTIVE come from the flash (R328). -/
def Crown.fwstatWord (c : Crown) : Dword := putBits (putBits c.fwstat 32 8 c.flashFails) 2 2 c.flashActive

/-- CTXVER of FWSTAT. -/
def Crown.ctxVer (c : Crown) : Nat := getBits c.fwstat 16 8
/-- STATE of FWSTAT (R328). -/
def Crown.state (c : Crown) : Nat := getBits c.fwstat 4 4
/-- The slot numbered as ACTIVE numbers them. -/
def Crown.slot (c : Crown) (n : Nat) : Image := if n = 1 then c.slotA else if n = 2 then c.slotB else c.golden
/-- The slot that an update takes: A while the golden slot is active (log entry 30). -/
def Crown.inactive (c : Crown) : Nat := if c.flashActive = 1 then 2 else 1
/-- The slot whose images run: the golden one in recovery, the inactive one in a trial. -/
def Crown.running (c : Crown) : Image := c.slot (if c.state = 4 then 0 else if c.state = 2 then c.inactive else c.flashActive)

/-- A Bowler stream of a cluster. -/
def State.bowlerOf (s : State) (cl : Nat) : Option Hart :=
  s.allHarts.find? (fun h => h.role == .bowler && h.live && clusterOf h.pl.core == cl)

/-- The 64-bit register at an offset of a unit. An offset without a register reads 0 (log entry 25). -/
def State.devGet (s : State) (unit off : Nat) : Dword :=
  if unit = 1 then
    if 0x1000 ≤ off ∧ off < 0x1800 then
      let q := s.queue ((off - 0x1000) / 32)
      let r := off % 32 / 8
      if r = 0 then q.qcfg else if r = 1 then q.qring else if r = 2 then q.qkey else q.qidx
    else if off = 0x2000 then s.fe.evaddr
    else if off = 0x2008 then s.fe.evkey
    else if off = 0x2010 then s.fe.evcfg
    else if off = 0x2018 then s.fe.evcons
    else if off = 0x2020 then s.fe.evprod
    else if off = 0x2028 then s.fe.evovf
    else if off = 0x3000 then s.fe.astbase
    else if off = 0x4000 then s.fe.errbase
    else if off = 0x4008 then s.fe.errcfg
    else if off = 0x4010 then s.fe.errprod
    else if off = 0x4018 then s.fe.errcons
    else 0
  else if unit = 2 then
    if off = 0x00 then s.crown.fwstatWord
    else if off = 0x18 then s.crown.trial
    else if off = 0x20 then s.crown.wdog
    else if off = 0x28 then BitVec.ofNat 64 (bnat s.crown.readyUp)
    else 0
  else if unit = 3 then
    if off = 0x00 then s.parity.cfg
    else if off = 0x08 then s.parity.memb
    else if off = 0x10 then s.parity.reg
    else if off = 0x18 then s.parity.size
    else if off = 0x20 then s.parity.prog
    else 0
  else if 0x100 ≤ unit ∧ unit ≤ 0x17F then
    let c := s.cluster (unit - 0x100)
    if off = 0x00 then c.mxcfg
    else if off = 0x08 then
      BitVec.ofNat 64 (256 * bnat (match s.bowlerOf (unit - 0x100) with | some h => h.bow.stopped | none => false))
    else if off = 0x10 then c.btr0
    else if off = 0x18 then c.btr1
    else if off = 0x20 then c.btr2
    else 0
  else 0

/-- QCFG written (R272, R304): EN stays 0 for an address space whose entry is not valid. -/
def State.putQcfg (s : State) (q : Nat) (v : Dword) : State :=
  let x := v &&& 0xF0FFFF70FFFFFFFF
  let x := if bit x 63 ∧ s.astRoot (BitVec.ofNat 16 (getBits x 40 16)) % 2 = 0 then putBits x 63 1 0 else x
  s.setQueue q { s.queue q with qcfg := x }

/-- A queue error (R276). -/
def qerror (q node : Nat) (kseq : Word) (code : Nat) (handle : Dword) : Event :=
  { type := 2, queue := q, node := node, kseq := kseq, code := BitVec.ofNat 32 code, handle := handle, detail := 0 }

/-- PROD of a queue written (R273): a ring overrun is queue error 10, and the write is ignored. DESIGN CHOICE, log entry 86: the event
has no kick, and its KSEQ is 0. -/
def State.putProd (s : State) (q : Nat) (prod : Word) : State :=
  let x := s.queue q
  let cons := getBits x.qidx 32 32
  if (prod.toNat + 2 ^ 32 - cons) % 2 ^ 32 > 2 ^ getBits x.qring 0 4 then s.raise (qerror q 0xFFFF 0 10 0)
  else s.setQueue q { x with qidx := putBits x.qidx 0 32 prod.toNat }

/-- What happens next, ahead of what was to happen. -/
def State.next (s : State) (e : Instr) : State := { s with agenda := e :: s.agenda }

/-- Software, firmware or either writes this field. The host's RDMA writes reach QIDX and EVCONS alone (R272, R277). -/
def isSw (w : Writer) : Bool := w == .sw
def isSwHost (w : Writer) : Bool := w == .sw || w == .host
def isFw (w : Writer) : Bool := w == .fw
def isSwFw (w : Writer) : Bool := isSw w || isFw w

/-- Firmware wrote PGCFG or PGMEMB: a replacement has taken the lost member's index where the entry changed, or where DEGRADED
was set, with no row left to rebuild; the rows are restored from row 0 on (R347). -/
def Parity.written (old p : Parity) : Parity :=
  if p.on && p.degraded && !p.rebuilding && (!old.degraded || old.member p.lost != p.member p.lost)
  then { p with prog := 0, early := [], restoring := true } else p

/-- The Crown clock: 100 MHz, one for 13 core clocks (R6, R325). -/
def State.crownNow (s : State) : Nat := s.clock / 13
def State.setCrown (s : State) (c : Crown) : State := { s with crown := c }
/-- A processor has let its watchdog interval pass (R325). -/
def Crown.late (c : Crown) (now proc : Nat) : Bool := decide (now ≥ c.kicks.at proc 0 + c.wdog.toNat)
/-- A released processor kicks its watchdog in time (R325). -/
def State.kick (s : State) (proc : Nat) : State :=
  let c := s.crown
  if c.released.contains proc && !c.late s.crownNow proc then s.setCrown { c with kicks := c.kicks.put proc s.crownNow } else s
/-- A processor writes WDOG (R325, R328). The write does not say which of the released ones did (DESIGN CHOICE, log entry 30). -/
def State.anyKick (s : State) : State :=
  let (k, s) := s.choose s.crown.released.length
  match s.crown.released[k]? with
  | some p => s.kick p
  | none => s

/-- A register of a unit written by `w` (R5): fields that `w` does not write are left. -/
def State.devPut (s : State) (w : Writer) (unit off : Nat) (v : Dword) : State :=
  if unit = 0 then
    -- system registers that firmware writes: PLC, and WREF of the die in off / 4096 (R19, R178, log entry 25)
    if off % 4096 = 0x010 ∧ isFw w then
      { s with podn := BitVec.ofNat 4 (getBits v 36 4), pkg := BitVec.ofNat 4 (getBits v 32 4) }
    else if off % 4096 = 0x015 ∧ isFw w then
      s.setDie (off / 4096) { s.die (off / 4096) with
        period := getBits v 0 16, window := getBits v 16 16, order := getBits v 34 2 }
    -- WSWIN of launch off / 4096 (R201)
    else if off % 4096 = 0x016 ∧ isFw w then
      let n := off / 4096
      let x := v &&& 0x01FFFFFFC000000F
      let s := s.setLaunch n { s.launch n with wswin := x }
      s.mapHarts (fun h => if h.live && h.pl.launch == n then { h with y := { h.y with wswin := x } } else h)
    -- what the pool device at port off / 4096 advertises under DVSEC ID 9: OPS, CMDBASE, CMDSLOTS and its version (R251, log
    -- entry 25)
    else if w == .hw then
      let d := s.devs.at (off / 4096 % 4) PoolDev.zero
      let put := fun (d : PoolDev) => { s with devs := s.devs.put (off / 4096 % 4) d }
      if off % 4096 = 0x008 then put { d with ops := getBits v 0 4 }
      else if off % 4096 = 0x009 then put { d with cmdBase := v }
      else if off % 4096 = 0x00A then put { d with slots := v.toNat }
      else if off % 4096 = 0x00B then put { d with version := v.toNat }
      else s
    else s
  else if unit = 1 then
    if 0x1000 ≤ off ∧ off < 0x1800 then
      let n := (off - 0x1000) / 32
      let q := s.queue n
      let r := off % 32 / 8
      if r = 0 then (if isSwFw w then s.putQcfg n v else s)
      else if r = 1 then (if isSwFw w then s.setQueue n { q with qring := v &&& 0xFFFFFFFFFFFFFF0F } else s)
      else if r = 2 then (if isSwFw w then s.setQueue n { q with qkey := v &&& 0x00FFFFFFFFFFFFFF } else s)
      else if isSwHost w then s.putProd n (v.truncate 32) else s
    else if off = 0x2000 then (if isFw w then { s with fe := { s.fe with evaddr := v } } else s)
    else if off = 0x2008 then (if isFw w then { s with fe := { s.fe with evkey := v &&& 0x00FFFFFFFFFFFFFF } } else s)
    else if off = 0x2010 then (if isFw w then { s with fe := { s.fe with evcfg := v &&& 0xF } } else s)
    else if off = 0x2018 then (if isSwHost w then { s with fe := { s.fe with evcons := v &&& 0xFFFFFFFF } } else s)
    else if off = 0x2028 then
      (if isSw w && getBits v 32 31 == 0 then { s with fe := { s.fe with evovf := putBits s.fe.evovf 32 31 0 } } else s)
    else if off = 0x3000 then (if isFw w then { s with fe := { s.fe with astbase := v &&& 0x000FFFFFFFFFF000 } } else s)
    else if off = 0x4000 then (if isFw w then { s with fe := { s.fe with errbase := v &&& 0x000FFFFFFFFFF000 } } else s)
    else if off = 0x4008 then (if isFw w then { s with fe := { s.fe with errcfg := v &&& 0xFFFFFFFF0000000F } } else s)
    else if off = 0x4018 then (if isFw w then { s with fe := { s.fe with errcons := v &&& 0xFFFFFFFF } } else s)
    else if 0x10000 ≤ off ∧ off < 0x11000 then { s with fe := { s.fe with errors := s.fe.errors + 1 } }
    else s
  else if unit = 2 then
    if off = 0x08 then (if isFw w && getBits v 0 2 == 1 then s.next .fwctlUpdate else s)
    else if off = 0x10 then (if isFw w && bit v 0 then s.next .commitGo else s)
    else if off = 0x18 then (if w == .crown then { s with crown := { s.crown with trial := v &&& 0xFFFFFFFFFF } } else s)
    else if off = 0x20 then
      (if w == .crown then { s with crown := { s.crown with wdog := v &&& 0xFFFFFFFF } }
      else if isFw w then s.anyKick else s)
    else if off = 0x28 then (if isFw w && bit v 0 then s.next .readyUp else s)
    else s
  else if unit = 3 then
    if !isFw w then s
    else
      let p := s.parity
      if off = 0x00 then { s with parity := p.written { p with cfg := mergeBits 0x801FFF8000000000 p.cfg v } }
      else if off = 0x08 then { s with parity := p.written { p with memb := v } }
      else if off = 0x10 then { s with parity := { p with reg := v &&& 0x000FFFFFFFFF0000 } }
      else if off = 0x18 then { s with parity := { p with size := v &&& 0xFFFFFF } }
      else s
  else if 0x100 ≤ unit ∧ unit ≤ 0x17F then
    let n := unit - 0x100
    if off = 0x00 then (if isSwFw w then s.setCluster n { s.cluster n with mxcfg := v &&& 0x7FFFF } else s)
    else if off = 0x08 ∧ isSwFw w then
      let c := getBits v 0 2
      if c = 1 then s.next (.bctlResume n) else if c = 2 then s.next (.bctlSkip n) else if c = 3 then s.next (.bctlEnd n) else s
    else s
  else s

/-- `n` bytes at an offset of a unit. -/
def State.devRead (s : State) (unit off n : Nat) : Nat := getBits (s.devGet unit (off / 8 * 8)) (off % 8 * 8) (8 * n)
/-- `n` bytes written at an offset of a unit; the register's other bytes are written with what they read. -/
def State.devWrite (s : State) (w : Writer) (unit off n x : Nat) : State :=
  s.devPut w unit (off / 8 * 8) (putBits (s.devGet unit (off / 8 * 8)) (off % 8 * 8) (8 * n) x)

end Sys2Proof.Machine
end

