-- ==== Sys2Proof/Machine/Access.lean ====
section
/-!
DEFINITION. What every access of a stream shares (R195 to R200): the checks made at the core, translation word by word,
reading and writing an element, the scope checker, pending stores and their fault records, and the release of R171.
-/

namespace Sys2Proof.Machine

/-! ### Checks made at the core (R195, R196, R201) -/

/-- The refusal that the core finds for a memory address aligned to `n`: its kind (R196). -/
def coreFault (h : Hart) (write weight : Bool) (n : Nat) (va : Dword) : Option Nat :=
  if !canonical va then some kNONCANON
  else if weight && !inWindow h.y.wswin va then some kWRONGKIND
  else if va.toNat % n != 0 then some kMISALIGN
  else if write && inWindow h.y.wswin va then some kWSWRITE
  else none

/-- The refusal that the core finds for `n` bytes at a scratchpad offset, aligned to `al`. -/
def scratchFault (g : Group) (al n : Nat) (off : Dword) : Option Nat :=
  if off.toNat % al != 0 then some kMISALIGN
  else if off.toNat + n > g.scratchSize then some kSCRATCH
  else none

/-- The lowest of several refused addresses with its kind. -/
def lowestFault (l : List (Dword × Nat)) : Option (Dword × Nat) :=
  l.foldl (fun acc x => match acc with
    | none => some x
    | some a => if x.1.toNat < a.1.toNat then some x else acc) none

/-- The precise class 3 of refusals found at the core, if there is one (R196). -/
def coreCause (l : List (Dword × Option Nat)) : Option Cause :=
  (lowestFault (l.filterMap (fun x => x.2.map (fun k => (x.1, k))))).map (fun x =>
    { cls := 3, kind := x.2, va := x.1 })

/-- One fault for each lane: the lowest address refused there. -/
def addLane (l : List LaneFault) (f : LaneFault) : List LaneFault :=
  match l.find? (fun x => x.lane == f.lane) with
  | none => l ++ [f]
  | some x => if f.va.toNat < x.va.toNat then l.map (fun y => if y.lane == f.lane then f else y) else l

/-- The class 3 cause of faults that a slice found. A partial fault names its lanes (R335). -/
def sliceCause (part : Bool) (fs : List LaneFault) : Cause :=
  let lo := (lowestFault (fs.map (fun f => (f.va, f.kind)))).getD (0, 0)
  { cls := 3, kind := lo.2, va := lo.1, lanes := if part then fs else [] }

/-! ### Translation of the executing stream's accesses -/

/-- The issuer of the executing stream. -/
def State.me (s : State) : Issuer := issuerOf s.cur
/-- The name of a word for the executing stream. -/
def State.nameOf (s : State) (x : Dword × PWord) : WKey := wordName (s.asidOf s.cur) x.1 x.2

/-- What refuses an access to a translated word: a store to a departed package (R348), and pool memory that no extent covers,
where the issuer's own caches do not answer a read (R249, R250). -/
def State.wordFault (s : State) (acc : Acc) (va : Dword) (pw : PWord) : Option Nat :=
  if acc.write && !acc.atomic && s.gone pw then some kNOTMAPPED
  else if s.reclaimed pw && (acc.write || (s.poolCopy s.me (s.nameOf (va, pw))).isNone) then some kRECLAIMED
  else none

/-- The translation of one byte for the executing stream at a privilege: what its L1 or L2 holds under a permission that
suffices, or else the slice's (R311). -/
def State.xlatPage (s : State) (acc : Acc) (priv : Bool) (va : Dword) : Except Nat PWord × State :=
  let asid := s.asidOf s.cur
  match (s.heldWord s.me asid va).filter (s.heldServes acc priv va) with
  | some x => (.ok x.2, s)
  | none =>
    match s.translate (stackOf s.cur.pl.core) asid priv acc va with
    | (.error k, s) => (.error k, s)
    | (.ok pw, s) => (.ok pw, match (s.lookup (stackOf s.cur.pl.core) asid va).1 with
      | some (leaf, size) => if pw.kind ≤ 2 then s.noteHeld s.me asid va leaf size else s
      | none => s)

/-- The translation of one byte with what refuses its word. -/
def State.xlat (s : State) (acc : Acc) (priv : Bool) (va : Dword) : Except Nat PWord × State :=
  match s.xlatPage acc priv va with
  | (.error k, s) => (.error k, s)
  | (.ok pw, s) => (match s.wordFault acc va pw with
    | some k => .error k
    | none => .ok pw, s)

/-- The addresses of the words that `n` bytes touch. -/
def wordsAt (ea : Dword) (n : Nat) : List Dword :=
  (List.range ((ea.toNat % 4 + n + 3) / 4)).map (fun j => (ea &&& ~~~ 3#64) + BitVec.ofNat 64 (4 * j))

/-- Every word of a list translated; the first that is refused ends it. -/
def State.xlatWords (s : State) (acc : Acc) (priv : Bool) : List Dword → Except (Dword × Nat) (List (Dword × PWord)) × State
  | [] => (.ok [], s)
  | va :: rest =>
    match s.xlat acc priv va with
    | (.error k, s) => (.error (va, k), s)
    | (.ok pw, s) =>
      match s.xlatWords acc priv rest with
      | (.error e, s) => (.error e, s)
      | (.ok l, s) => (.ok ((va, pw) :: l), s)

/-! ### Reading -/

/-- One translated word read by the executing stream. A departed package's memory reads as poison (R348). -/
def State.readWord (s : State) (i : Issuer) (x : Dword × PWord) : (Word × Bool) × State :=
  if s.gone x.2 then ((memWord s.mem (pwKey x.2), true), s)
  else if x.2.kind = 2 then s.poolRd i (s.nameOf x)
  else if x.2.kind = 3 then (s.weightWord x.2, s)
  else
    let (w, _, s) := s.rd i (s.nameOf x)
    (w, s)

def State.readWords (s : State) (i : Issuer) : List (Dword × PWord) → List (Word × Bool) × State
  | [] => ([], s)
  | x :: rest =>
    let (w, s) := s.readWord i x
    let (ws, s) := s.readWords i rest
    (w :: ws, s)

/-- `n` bytes at `ea` from the words that hold them. -/
def pickBytes (ea : Dword) (n : Nat) (ws : List (Word × Bool)) : Dword :=
  BitVec.ofNat 64 (leNat (((ws.flatMap (fun w => leBytes 4 w.1.toNat)).drop (ea.toNat % 4)).take n))

/-- The first poisoned word that an access reads, with its address. -/
def State.badWord (s : State) (i : Issuer) (xs : List (Dword × PWord)) : Option (Dword × PWord) :=
  ((xs.zip (s.readWords i xs).1).find? (fun x => x.2.2)).map (fun x => x.1)
/-- Class 11 for a poisoned word that a scalar access reads (R199, R335): BTR2 of a Bowler stream is the word's address
(R166). -/
def State.wordCause (s : State) (x : Option (Dword × PWord)) : Cause :=
  match x with
  | some x => { s.badCause (.word x.2) with va := if s.cur.role == .bowler then x.1 else 0 }
  | none => { cls := 11 }

/-- The bank that a die refreshes now, during its window (R178). -/
def Die.openBank (d : Die) : Nat := if d.order = 1 then (d.bank + 1) % 16 else (d.bank + 15) % 16

/-- A read of a weight-store word from a core's die waits for refresh (R15, R178). -/
def State.refreshHolds (s : State) (core : Nat) (pw : PWord) : Bool :=
  let d := pw.off / 2 ^ 29 % 16
  pw.kind == 3 && (s.die d).openUntil.isSome && (dieOf core != d || (s.die d).openBank == pw.off / 1024 % 16)

/-- Two byte ranges share a word. -/
def wordsMeet (a : Dword) (n : Nat) (b : Dword) (k : Nat) : Bool :=
  a.toNat / 4 * 4 < b.toNat + k && b.toNat / 4 * 4 < a.toNat + n

/-- The words of one request: the span from the lowest to the highest word touched in a line frame (R179). -/
def spanOf (ks : List WKey) : List WKey :=
  match ks with
  | [] => []
  | k :: rest =>
    let lo := rest.foldl (fun m (x : WKey) => min m x.va) k.va
    let hi := rest.foldl (fun m (x : WKey) => max m x.va) k.va
    (List.range ((hi - lo) / 4 + 1)).map (fun j =>
      { k with va := lo + 4 * j, pw := { k.pw with off := k.pw.off / 128 * 128 + (lo + 4 * j) % 128 } })

/-- The requests of an access, one for each line frame. -/
def requests (ks : List WKey) : List (List WKey) :=
  (((ks.map (fun k => k.va / 128)).dedup).map (fun f => spanOf (ks.filter (fun k => k.va / 128 == f))))

/-- The coherent words of an access (R25). -/
def cohKeys (ks : List WKey) : List WKey := ks.filter (fun k => k.pw.kind ≤ 1)
/-- The words that the spans of an access's requests add to those it touches (R179). -/
def spanExtra (ks : List WKey) : List WKey := ((requests (cohKeys ks)).flatten).filter (fun k => !ks.contains k)

/-- A pending store touches a word of the bytes at `ea`. -/
def storeMeets (st : Store) (ea : Dword) (n : Nat) : Bool := st.elems.any (fun e => wordsMeet e.ea e.data.length ea n)
/-- An older store of the stream to one of these words is not performed (R172). -/
def storesMeet (h : Hart) (vas : List Dword) : Bool := h.m.stores.any (fun st => vas.any (fun va => storeMeets st va 4))

/-- A read of these words by the executing stream waits: for a refresh window (R178), for what an access to a word of its spans waits
for, or for the stream's own older store to one of them (R172). -/
def State.readWaits (s : State) (ws : List (Dword × PWord)) : Bool :=
  ws.any (fun w => s.refreshHolds s.cur.pl.core w.2) || ws.any (fun w => s.waits s.me none (s.nameOf w))
    || (spanExtra (ws.map s.nameOf)).any (fun k => !s.gone k.pw && s.waits s.me none k) || storesMeet s.cur (ws.map (fun w => w.1))
/-- The waiting words of a read ask their homes. -/
def State.askRead (s : State) (ws : List (Dword × PWord)) : State :=
  let ks := ws.map s.nameOf
  s.askFor s.me false ((ks ++ spanExtra ks).filter (s.waits s.me none))
/-- The words of an OWN's spans that wait: its issuer, its scope, and whether it is an atomic, which waits also for the stream's own
older stores to them (R172). -/
def State.ownWaits (s : State) (i : Issuer) (sc : Scope) (ks : List WKey) (atomic : Bool := false) : List WKey :=
  (ks ++ (spanExtra ks).filter (fun k => !s.gone k.pw)).filter (fun k =>
    s.waits i (some (s.levelOf i sc k.pw)) k atomic || (atomic && storesMeet s.cur [BitVec.ofNat 64 k.va]))

/-- The unit and offset of a device address. -/
def devAddr (ea : Dword) (pw : PWord) : Nat × Nat := (pw.off / 2 ^ 24, pw.off % 2 ^ 24 + ea.toNat % 4)

/-- An element of `n` bytes read through its translated words: the value and whether it is poisoned. -/
def State.readElem (s : State) (i : Issuer) (ea : Dword) (n : Nat) (xs : List (Dword × PWord)) : (Dword × Bool) × State :=
  match xs with
  | [] => ((0, false), s)
  | x :: _ =>
    if x.2.kind = 4 then
      let a := devAddr ea x.2
      ((BitVec.ofNat 64 (s.devRead a.1 a.2 n), false), s)
    else
      let (ws, s) := s.readWords i xs
      ((pickBytes ea n ws, ws.any (fun w => w.2)), s)

/-! ### Writing -/

/-- A word with the bytes `bs` put in from byte `o` on. -/
def setBytes (w : Word) (o : Nat) (bs : List Byte) : Word :=
  let old := leBytes 4 w.toNat
  BitVec.ofNat 32 (leNat ((old.take o ++ bs ++ old.drop (o + bs.length)).take 4))

/-- The bytes of an element that fall into its word number `j`, with their place in it. -/
def pieceOf (ea : Dword) (data : List Byte) (j : Nat) : Nat × List Byte :=
  let o := ea.toNat % 4
  if j = 0 then (o, data.take (4 - o)) else (0, (data.drop (4 * j - o)).take 4)

/-- The checker is on for the context of a stream (R186, R304). -/
def State.checkerOn (s : State) : Bool :=
  match s.cur.role with
  | .warp => bit s.myGroup.mctl 0
  | .bowler => s.cur.bow.schk

/-- The level at which an OWN is carried out: a synchronising one climbs to its meeting node while the checker is on (R185). -/
def State.ownLevel (s : State) (i : Issuer) (top : Nat) (k : WKey) (sync : Bool) : Nat :=
  if sync && s.checkerOn then s.meetOwnLevel i top k else s.stopLevel i top k

/-- Bytes written to one translated word by the executing stream. -/
def State.writeWord (s : State) (i : Issuer) (sc : Scope) (sync : Bool) (x : Dword × PWord) (o : Nat) (bs : List Byte) : State :=
  let f := fun w => setBytes w o bs
  let whole := bs.length ≥ 4
  if x.2.kind = 2 then s.poolWr i (s.nameOf x) f whole
  else if x.2.kind = 3 then s.homePut x.2 (f (memWord s.mem (pwKey x.2))) false
  else
    let top := s.levelOf i sc x.2
    (s.ownAt i top (s.ownLevel i top (s.nameOf x) sync) (s.nameOf x) f whole).2

def State.writeWordsFrom (s : State) (i : Issuer) (sc : Scope) (sync : Bool) (ea : Dword) (data : List Byte) :
    Nat → List (Dword × PWord) → State
  | _, [] => s
  | j, x :: rest =>
    let p := pieceOf ea data j
    (s.writeWord i sc sync x p.1 p.2).writeWordsFrom i sc sync ea data (j + 1) rest

/-- An element written through its translated words. -/
def State.writeElem (s : State) (i : Issuer) (sc : Scope) (sync : Bool) (ea : Dword) (data : List Byte)
    (xs : List (Dword × PWord)) : State :=
  match xs with
  | [] => s
  | x :: _ =>
    if x.2.kind = 4 then
      let a := devAddr ea x.2
      s.devWrite .sw a.1 a.2 data.length (leNat data)
    else s.writeWordsFrom i sc sync ea data 0 xs

/-! ### The scope checker on an access (R185) -/

/-- The spans of an access's requests are used at the nodes of the issuer's chain (R179). -/
def State.noteSpans (s : State) (i : Issuer) (ks : List WKey) : State :=
  (requests (cohKeys ks)).foldl (fun s r =>
    (chainLevels i 5).foldl (fun s l => s.trackSpan (chainNode i.core l) r) s) s

/-- A read brings the words of its requests' spans that it does not touch with it (R179). -/
def State.fillSpans (s : State) (i : Issuer) (ks : List WKey) : State :=
  (spanExtra ks).foldl (fun s k => if s.gone k.pw then s else (s.rd i k).2.2) s

/-- An OWN takes the words of its requests' spans that it does not write with it (R179): a remote atomic recalls them to their
home. -/
def State.ownSpans (s : State) (i : Issuer) (sc : Scope) (sync atomic : Bool) (ks : List WKey) : State :=
  (spanExtra ks).foldl (fun s k =>
    let top := s.levelOf i sc k.pw
    if s.gone k.pw then s
    else if atomic && top ≥ 6 then s.recall k.pw (s.needOf i (chainLevels i 5) k)
    else s.ownOnly i (s.ownLevel i top k sync) k) s

/-- A synchronising access checked and recorded, request by request; none is class 5. -/
def State.checkAccess (s : State) (i : Issuer) (sc : Scope) (ks : List WKey) (own whole : Bool) : Option State :=
  let on := s.checkerOn
  (requests (cohKeys ks)).foldl (fun acc r =>
    match acc, r with
    | some s, k :: _ => s.checkSync i (s.levelOf i sc k.pw) sc r own whole on
    | acc, _ => acc) (some s)

/-! ### Operation counters (R189) -/

/-- An operation completes: completions are reported in issue order. -/
def opsDone (l : List OpRef) (id : Nat) : List OpRef :=
  (l.map (fun o => if o.id = id then { o with done := true } else o)).dropWhile (fun o => o.done)
/-- An operation withdrawn. -/
def opsDrop (l : List OpRef) (id : Nat) : List OpRef := (l.filter (fun o => o.id != id)).dropWhile (fun o => o.done)

def Hart.gaDone (h : Hart) (c : Option Nat) : Hart :=
  match c with
  | none => h
  | some id => { h with m := { h.m with ga := opsDone h.m.ga id } }

/-! ### Pending stores (R200) -/

/-- The deltas have their acknowledgements, or the group has lost a member and none is waited for (R194, R345). -/
def State.acksIn (s : State) (acks : List DeltaId) : Bool :=
  s.parity.degraded || acks.all (fun a => s.parity.sent.all (fun d => d.id != a))

/-- A dirty copy of a pool word in the issuer's own caches: the device has no write for it yet (R193). -/
def State.poolDirty (s : State) (i : Issuer) (k : WKey) : Bool :=
  (chainLevels i 1).any (fun l => isDirty (s.copyAt (chainNode i.core l) k).st)

/-- The access counts as performed (R193, R194, R200). -/
def State.storeEnded (s : State) (st : Store) : Bool :=
  st.elems.isEmpty && st.range.isNone && st.faults.isEmpty && s.acksIn st.acks && !st.pool.any (s.poolDirty s.me)

/-- Performed stores leave the list, and the ga counter with them. -/
def State.tidyStores (s : State) : State :=
  let done := s.cur.m.stores.filter s.storeEnded
  let h := done.foldl (fun (h : Hart) st => h.gaDone st.counted) s.cur
  { s with cur := { h with m := { h.m with stores := h.m.stores.filter (fun st => !s.storeEnded st) } } }

/-! ### Outstanding requests (R1, R12, R179) -/

/-- The line frames that accesses of these addresses and lengths touch: one request for each. -/
def framesOf (l : List (Dword × Nat)) : Nat :=
  ((l.flatMap (fun e => (wordsAt e.1 e.2).map (fun va => va.toNat / 128))).dedup).length
/-- The requests of a returning access that has no answer. -/
def Ret.requests (r : Ret) : Nat :=
  if r.confirmed || r.trap.isSome then 0 else framesOf (r.elems.map (fun e => (e.ea, e.bytes)))
/-- The requests of a store-like access that is not performed. -/
def Store.requests (st : Store) : Nat :=
  if st.range.isSome then 1 else framesOf (st.elems.map (fun e => (e.ea, e.data.length)))
/-- The outstanding requests of the warps of a core. -/
def State.requestsOf (s : State) (core : Nat) : Nat :=
  (s.allHarts.filter (fun h => h.role == .warp && h.pl.core == core)).foldl
    (fun n h => (h.m.stores.map Store.requests).foldl (· + ·) ((h.m.returning.map Ret.requests).foldl (· + ·) n)) 0
/-- The core of the executing warp has room for `n` requests more: it keeps at most 4,096. -/
def State.requestRoom (s : State) (n : Nat) : Bool := s.cur.role == .bowler || s.requestsOf s.cur.pl.core + n ≤ 4096

/-- The lowest address of an access that is refused, where one of its words is. -/
def refusedAt (ea va : Dword) : Dword := if va.toNat < ea.toNat then ea else va

/-- Every element of a store translated: what each gives, in order. -/
def State.xlatStore (s : State) (priv : Bool) (fine : Bool) :
    List StElem → List (StElem × Except (Dword × Nat) (List (Dword × PWord))) × State
  | [] => ([], s)
  | e :: rest =>
    let (r, s) := s.xlatWords { write := true, fine := fine } priv (wordsAt e.ea e.data.length)
    let (rs, s) := s.xlatStore priv fine rest
    ((e, r) :: rs, s)

/-- The faults of a translated store, one for each lane. -/
def storeFaults (l : List (StElem × Except (Dword × Nat) (List (Dword × PWord)))) : List LaneFault :=
  l.foldl (fun acc x => match x.2 with
    | .error e => addLane acc { lane := x.1.lane, kind := e.2, va := refusedAt x.1.ea e.1 }
    | .ok _ => acc) []

/-- The words of a translated store. -/
def storeKeys (s : State) (l : List (StElem × Except (Dword × Nat) (List (Dword × PWord)))) : List WKey :=
  l.flatMap (fun x => match x.2 with
    | .error _ => []
    | .ok ws => ws.map s.nameOf)

/-- The store-like forms that act on lanes; the others write nothing when any part faults (R200). -/
def laneStore : Instr → Bool
  | .vst _ | .vsct _ | .tst _ | .vpush _ => true
  | _ => false
/-- The form may store to KIND 4 (R22). DESIGN CHOICE, log entry 80: of the scalar forms only SST may; the pushes of SPUSH and CALL
are refused there. -/
def fineStore : Instr → Bool
  | .sst _ => true
  | _ => false

/-- The elements of a translated store written, ascending (R204), except in faulted lanes. -/
def State.writeStore (s : State) (i : Issuer) (sc : Scope) (sync : Bool) (bad : Nat → Bool)
    (l : List (StElem × Except (Dword × Nat) (List (Dword × PWord)))) : State :=
  l.foldl (fun s x => match x.2 with
    | .error _ => s
    | .ok ws => if bad x.1.lane then s else s.writeElem i sc sync x.1.ea x.1.data ws) s

/-- A store with release ordering, which synchronises (R185, R210). -/
def relStore : Instr → Bool
  | .sst f | .vst f | .vsct f | .tst f => isRel f.ord
  | _ => false

/-- The elements of a store performed by the executing stream: the faults, the pool words written, and the state after. -/
def State.performElems (s : State) (i : Instr) (sc : Scope) (priv : Bool) (elems : List StElem) :
    List LaneFault × List WKey × State :=
  let (l, s) := s.xlatStore priv (fineStore i) elems
  let fs := storeFaults l
  let bad := fun lane => if laneStore i then fs.any (fun f => f.lane == lane) else !fs.isEmpty
  let done := storeKeys s (l.filter (fun x => !bad x.1.lane))
  (fs, done.filter (fun k => k.pw.kind == 2),
    ((s.ownSpans s.me sc (relStore i) false done).writeStore s.me sc (relStore i) bad l).noteSpans s.me done)

/-- The level of a fence or release at a scope by the executing stream. -/
def State.fenceLevel (s : State) (sc : Scope) : Nat := scopeLevel s.me sc 0

/-- The words of a byte range, in ascending order (R222). -/
def rangeWords (r : Nat × Nat) : List Dword :=
  if r.2 = 0 then [] else wordsAt (BitVec.ofNat 64 r.1) r.2

/-- One word written back (R222): coherent words are pushed to N_S, pool words go to the device at system scope. -/
def State.cwbWord (s : State) (sc : Scope) (x : Dword × PWord) : State :=
  if x.2.kind = 2 then (if scopeNum sc ≥ 6 then s.poolCwb s.me (s.nameOf x) else s)
  else if x.2.kind ≤ 1 then s.performWord s.me (s.levelOf s.me sc x.2) (s.nameOf x)
  else s

/-- One word invalidated (R222): clean copies of coherent words in the issuer's own chain below N_S, every copy of pool
words at system scope. -/
def State.cinvWord (s : State) (sc : Scope) (x : Dword × PWord) : State :=
  if x.2.kind = 2 then (if scopeNum sc ≥ 6 then s.poolDrop s.me (s.nameOf x) else s)
  else
    let top := s.levelOf s.me sc x.2
    (chainLevels s.me 1).foldl (fun s l =>
      let c := s.copyAt (chainNode s.me.core l) (s.nameOf x)
      if l < top ∧ (c.st = CohSt.s ∨ c.st = CohSt.e) then (s.setCopy { c with st := .i, val := none }).trimTable else s) s

/-- The words of a range that translate, in order, whatever their permission (R310); the others are skipped (R222). -/
def State.rangeMap (s : State) (f : State → Dword × PWord → State) (vas : List Dword) : State :=
  vas.foldl (fun s va => if !canonical va then s else match s.xlatPage {} true va with
    | (.error _, s) => s
    | (.ok pw, s) => f s (va, pw)) s

/-- CWB or CWBI of a range. -/
def State.performRange (s : State) (i : Instr) (sc : Scope) (r : Nat × Nat) : State :=
  let s := s.rangeMap (fun s x => s.cwbWord sc x) (rangeWords r)
  match i with
  | .cwbi _ => s.rangeMap (fun s x => s.cinvWord sc x) (rangeWords r)
  | _ => s

/-- The words of a pending store that translate. -/
def State.pendingWords (s : State) (st : Store) : List WKey :=
  (st.elems.flatMap (fun e => wordsAt e.ea e.data.length)).filterMap (fun va =>
    match (s.xlat { write := true, fine := fineStore st.i } st.priv va).1 with
    | .ok pw => some (s.nameOf (va, pw))
    | .error _ => none)

/-- The words that a push to level `top` would write at a home where they wait for a rebuild (R342). -/
def State.pushWaits (s : State) (top : Nat) : List WKey :=
  if top < 6 then [] else (s.chainWords s.me top).filter (fun k => s.poisonWaits k.pw)

/-- The words of a store that wait (R191, R192, R342, R345, R351). -/
def State.storeWaits (s : State) (st : Store) : List WKey :=
  if st.range.isSome then s.pushWaits (s.fenceLevel st.scope)
  else s.ownWaits s.me st.scope (s.pendingWords st)

/-- A pending store is one to KIND 4, which keeps program order among such (R22). -/
def State.deviceStore (s : State) (st : Store) : Bool := fineStore st.i && (s.pendingWords st).any (fun k => k.pw.kind == 4)

/-- Pending store number `k` of the executing stream performed, where no older one touches a word of it (R172) or goes to a
device as it does (R22), and nothing makes it wait. A range operation keeps its place among the stores. -/
def State.performStore (s : State) (k : Nat) : State :=
  match s.cur.m.stores[k]? with
  | none => s
  | some st =>
    let older := s.cur.m.stores.take k
    if st.elems.any (fun e => older.any (fun o => storeMeets o e.ea e.data.length)) || older.any (fun o => o.range.isSome)
        || (st.range.isSome && older.any (fun o => !o.elems.isEmpty))
        || (older.any (fun o => !o.elems.isEmpty && s.deviceStore o) && s.deviceStore st) then s
    else if !(s.storeWaits st).isEmpty then s.askFor s.me st.range.isNone (s.storeWaits st)
    else
      let before := s.parity.sent
      let (fs, pool, s) := match st.range with
        | some r => ([], [], s.performRange st.i st.scope r)
        | none => if st.elems.isEmpty then (st.faults, st.pool, s) else s.performElems st.i st.scope st.priv st.elems
      let acks := if st.scope == .surv
        then st.acks ++ ((s.parity.sent.drop before.length).map (fun d => d.id)) else st.acks
      let st := { st with elems := [], range := none, faults := fs, acks := acks, pool := pool }
      (s.mapAcc (fun m => { m with stores := m.stores.set k st })).tidyStores

/-- The records in a core's store-fault queue. -/
def State.queueLen (s : State) (core : Nat) : Nat :=
  (s.allHarts.filter (fun h => h.role == .warp && h.pl.core == core)).foldl
    (fun n h => n + (h.m.sfrecs.filter (fun r => !r.kept)).length) 0

/-- The record of a faulted store (R336). -/
def storeRecord (h : Hart) (st : Store) (kept : Bool) : SfRec :=
  let cf := classFn st.i
  let lo := (lowestFault (st.faults.map (fun f => (f.va, f.kind)))).getD (0, 0)
  { pc := st.pc, va := lo.1, lanes := if laneStore st.i then faultMask st.faults else 1, kind := BitVec.ofNat 4 lo.2,
    fn := BitVec.ofNat 6 cf.2, icls := BitVec.ofNat 4 cf.1, slot := BitVec.ofNat 5 h.pl.slot,
    issued := BitVec.ofNat 32 (min (h.c.issued - st.issuedAt) (2 ^ 32 - 1)), kept := kept }

/-- A record dropped at a save is counted (R332, R338). -/
def dropRecord (t : TrapRegs) (r : SfRec) : TrapRegs :=
  { t with tsfov := putBits (putBits t.tsfov 0 16 (min (getBits t.tsfov 0 16 + 1) 65535)) (16 + r.kind.toNat) 1 1 }

/-- The first four of a list of records are kept, the others dropped (R338, R339). -/
def keepRecords (h : Hart) : Hart :=
  { h with m := { h.m with sfrecs := (h.m.sfrecs.take 4).map (fun r => { r with kept := true }) }
           t := (h.m.sfrecs.drop 4).foldl dropRecord h.t }

/-- The oldest reported fault is entered: in the core's queue while it has room (R200, R336), or in the trap state of a warp
that a save has stopped (R319). -/
def State.enterRecord (s : State) : State :=
  let away := s.cur.role == .warp && (s.group s.cur.pl.group).phase != .resident
  if !away && s.queueLen s.cur.pl.core ≥ 16 then s
  else match s.cur.m.stores.findIdx? (fun st => st.elems.isEmpty && st.range.isNone && !st.faults.isEmpty) with
    | none => s
    | some k => match s.cur.m.stores[k]? with
      | none => s
      | some st =>
        let h := s.cur
        let recs := if (s.group h.pl.group).phase == .ended then [] else [storeRecord h st away]
        let m := { h.m with stores := h.m.stores.eraseIdx k, sfrecs := h.m.sfrecs ++ recs }
        let h := { h with m := m }.gaDone st.counted
        { s with cur := if away then keepRecords h else h }

/-- The pending stores from number `k` on tried in their order: one that leaves the list gives its number to the next. -/
def State.performFrom (s : State) : Nat → Nat → State
  | 0, _ => s
  | n + 1, k =>
    let t := s.performStore k
    t.performFrom n (if t.cur.m.stores.length < s.cur.m.stores.length then k else k + 1)

/-- Every pending store of the executing stream performed that does not have to wait, and every fault entered that has room. -/
def State.drain (s : State) : State :=
  let n := s.cur.m.stores.length
  (List.range n).foldl (fun s _ => s.enterRecord) (s.performFrom n 0).tidyStores

/-- The stream's pending stores that `p` picks are performed first, where they can be. -/
def State.performFirst (s : State) (p : Store → Bool) : State := if s.cur.m.stores.any p then s.drain else s
/-- The stream's own stores to the bytes given are performed first (R172). -/
def State.ownStoresFirst (s : State) (ea : Dword) (n : Nat) : State := s.performFirst (fun st => storeMeets st ea n)
/-- A device access of the stream waits for its older device stores (R22). -/
def State.deviceWaits (s : State) (ws : List (Dword × PWord)) : Bool :=
  ws.any (fun w => w.2.kind == 4) && s.cur.m.stores.any (fun st => !st.elems.isEmpty && s.deviceStore st)

/-- Every older store-like access is performed or its record entered (R221, R337). -/
def storesEnded (h : Hart) : Bool := h.m.stores.isEmpty

/-! ### Release and acquire (R171) -/

/-- Bits of a mask of R171. -/
def maskBit (m i : Nat) : Bool := m / 2 ^ i % 2 == 1

/-- Release(S, pred): what it has done so far, and whether it is complete. The pushes are made whatever `pred` selects. -/
def State.release (s : State) (sc : Scope) (pred : Nat) : Bool × State :=
  let s := if maskBit pred 1 then s.drain else s
  let waitW := maskBit pred 1 && !storesEnded s.cur
  let waitC := (maskBit pred 2 || maskBit pred 3) && (!s.cur.m.cp.isEmpty || !s.cur.m.fb.isEmpty)
  let lost := s.pushWaits (s.fenceLevel sc)
  if waitW || waitC then (false, s)
  else if !lost.isEmpty then (false, s.askFor s.me false lost)
  else
    let s := s.pushAll s.me (s.fenceLevel sc)
    (!(sc == .surv && maskBit pred 1 && !s.acksIn (s.parity.sent.map (fun d => d.id))), s)

/-- Acquire(S, succ). -/
def State.acquireFor (s : State) (sc : Scope) (succ : Nat) : State :=
  if maskBit succ 0 || maskBit succ 2 || maskBit succ 4 then s.acquire s.me (s.fenceLevel sc) else s

/-- The acquire that follows an access of scope `sc` to words of the kinds given (R170, R171). -/
def State.acquireAfter (s : State) (sc : Scope) (kinds : List Nat) : State :=
  s.acquire s.me (kinds.foldl (fun l k => max l (scopeLevel s.me sc k)) (s.fenceLevel sc))

/-- An access with release ordering waits for Release(S, r|w) before it acts. -/
def withRelease (rel : Bool) (sc : Scope) (s : State) (k : State → Out) : Out :=
  if !rel then k s
  else match s.release sc 3 with
    | (true, s) => k s
    | (false, s) => stall s

end Sys2Proof.Machine
end

