-- ==== Sys2Proof/Machine/Loads.lean ====
section
/-!
DEFINITION. The returning accesses of class 0x6 (R197 to R199, R202 to R209): their issue, their confirmation (the event
RD), their commit and their faults.
-/

namespace Sys2Proof.Machine

/-! ### Forms -/

/-- What a load asks of its pages (R22, R207). DESIGN CHOICE, log entry 80: of the scalar forms only SLD may read KIND 4; SPOP, RET
and WAITB are refused there. -/
def loadAcc : Instr → Acc
  | .sld _ => { fine := true }
  | .wld _ => { weight := true }
  | _ => {}
/-- TY of a load. -/
def loadTy : Instr → BitVec 4
  | .sld f | .vld f | .vgld f | .lld f | .wld f | .tld f => f.ty
  | _ => 0
/-- The forms that are never split (R199). -/
def wholeLoad : Instr → Bool
  | .spop _ | .vpop _ => true
  | i => scalarReturning i

/-- EA of format M (R195). -/
def FM.ea (f : FM) (s : State) : Dword := s.cur.r.getS f.sa.toNat + f.off.signExtend 64
/-- An index of R204. -/
def indexTerm (x : Word) (sx : Bool) (sh : Nat) : Dword := (if sx then x.signExtend 64 else x.zeroExtend 64) <<< sh
/-- EA(l) of R204. -/
def FM.eaLane (f : FM) (sx : Bool) (sh : Nat) (s : State) (l : Nat) : Dword :=
  s.cur.r.getS f.sa.toNat + indexTerm ((s.cur.r.getV f.vx.toNat).lane l) sx sh + f.off.signExtend 64
/-- ST of a format M or A instruction (R43). -/
def tySt (ty : BitVec 4) : STy := stOf (ty.truncate 3)
/-- A value as a scalar destination of type `t` receives it (R202). -/
def loadVal (t : STy) (x : Dword) : Dword := stExt t (stArg t x)
/-- The bytes of a scalar type. -/
def stBytes (t : STy) : Nat := stWidth t / 8

/-! ### What a returning access writes -/

/-- The destination registers of a returning access empty, or full again. -/
def Regs.mark (r : Regs) (u : Uses) (full : Bool) : Regs :=
  u.vd.foldl (fun r n => r.setFullV n full) (u.sd.foldl (fun r n => r.setFullS n full) r)

/-- The tag that VPOP gives a register: POISON where a word was poisoned, else the record's (R199, R209). -/
def popTag (r : Ret) (n : Nat) : BitVec 12 :=
  if r.got.any (fun g => g.reg == n && g.bad) then poisonTag
  else normTag (((r.got.find? (fun g => g.reg == n && g.lane == 32)).map (fun g => g.val.truncate 12)).getD 0)

/-- A tag value from VPOP's record that no register may hold (R209). -/
def popRefused (r : Ret) : Option Dword :=
  (r.got.find? (fun g => g.lane == 32 && !g.bad
    && 11 ≤ g.val.toNat / 256 % 16 && g.val.toNat / 256 % 16 ≤ 14)).map (fun g => BitVec.ofNat 64 (g.val.toNat % 4096))

/-- The lanes of one register written with what arrived, and its tag (R89). -/
def writeLoadV (r : Ret) (regs : Regs) (n : Nat) : Regs :=
  let gs := r.got.filter (fun g => g.reg == n && g.lane < 32)
  if gs.isEmpty then regs
  else
    let tag := match r.i with
      | .vpop _ => popTag r n
      | i => if r.got.any (fun g => g.bad) then poisonTag else mkTag (loadTy i).toNat 0
    regs.writeV n (gs.foldl (fun v g => vset v g.lane (g.val.truncate 32)) (regs.getV n).lanes) tag

/-- The commit of a returning access: its destinations written and full. -/
def commitRegs (r : Ret) (regs : Regs) : Regs :=
  let u := uses r.i
  let regs :=
    match r.i with
    | .spop _ => r.got.foldl (fun (x : Regs) (g : Got) => x.setS g.reg g.val) regs
    | i =>
      if scalarReturning i then
        r.got.foldl (fun (x : Regs) (g : Got) => x.setS g.reg (loadVal (tySt (loadTy i)) g.val)) regs
      else u.vd.foldl (writeLoadV r) regs
  let regs := match loadNf r.i with
    | some p => regs.setP p r.nf
    | none => regs
  regs.mark u true

/-! ### Confirmation (RD) -/

/-- Every element of a load translated. -/
def State.xlatLoad (s : State) (acc : Acc) (priv : Bool) :
    List Elem → List (Elem × Except (Dword × Nat) (List (Dword × PWord))) × State
  | [] => ([], s)
  | e :: rest =>
    let (r, s) := s.xlatWords acc priv (wordsAt e.ea e.bytes)
    let (rs, s) := s.xlatLoad acc priv rest
    ((e, r) :: rs, s)

/-- The faults of a translated load, one for each lane. -/
def loadFaults (l : List (Elem × Except (Dword × Nat) (List (Dword × PWord)))) : List LaneFault :=
  l.foldl (fun acc x => match x.2 with
    | .error e => addLane acc { lane := x.1.lane, kind := e.2, va := refusedAt x.1.ea e.1 }
    | .ok _ => acc) []
/-- The words of a translated load. -/
def loadWords (l : List (Elem × Except (Dword × Nat) (List (Dword × PWord)))) : List (Dword × PWord) :=
  l.flatMap (fun x => match x.2 with
    | .error _ => []
    | .ok ws => ws)

/-- The elements of lanes that did not fault, read. A register that takes a poisoned word takes its record with it (R335). -/
def State.readLoad (s : State) (bad : Nat → Bool) :
    List (Elem × Except (Dword × Nat) (List (Dword × PWord))) → List Got × State
  | [] => ([], s)
  | (e, .error _) :: rest => let _ := e; s.readLoad bad rest
  | (e, .ok ws) :: rest =>
    if bad e.lane then s.readLoad bad rest
    else
      let site := s.badWord s.me ws
      let ((v, b), s) := s.readElem s.me e.ea e.bytes ws
      let s := match site with
        | some x => s.noteRecord (.vreg s.cur.id e.reg) (s.recordOf (.word x.2))
        | none => s
      let (gs, s) := s.readLoad bad rest
      ({ lane := e.lane, reg := e.reg, val := v, bad := b } :: gs, s)

/-- A returning access with what its elements gave: confirmed, or the trap that it reports (R199, R205, R209). `poison` is that
of a scalar destination. -/
def Ret.resolve (r : Ret) (poison : Cause) (fs : List LaneFault) (got : List Got) : Ret :=
  let r := { r with got := got }
  if !fs.isEmpty then
    if wholeLoad r.i then { r with got := [], trap := some (sliceCause false fs) }
    else match loadNf r.i with
      | some _ => { r with confirmed := true, nf := faultMask fs }
      | none => { r with trap := some (sliceCause true fs) }
  else if scalarReturning r.i ∧ got.any (fun g => g.bad) then { r with trap := some poison }
  else match r.i with
    | .vpop _ => match popRefused r with
      | some t => { r with trap := some { cls := 1, detail := t } }
      | none => { r with confirmed := true }
    | _ => { r with confirmed := true }

/-- Access `k` of the executing stream replaced. -/
def State.setRet (s : State) (k : Nat) (r : Ret) : State :=
  s.mapAcc (fun m => { m with returning := m.returning.set k r })

/-- RD of returning access `k` (R181, R197): its translation, its check and the values that it returns (log entry 12). It
waits for an older access to the same word, an older acquire, an older KIND 4 access, a refresh window, and what R342, R345 and R351
make it wait for. -/
def State.rdRet (s0 : State) (k : Nat) : State :=
  match s0.cur.m.returning[k]? with
  | none => s0
  | some r =>
    let older := (s0.cur.m.returning.take k).filter (fun o => !o.confirmed)
    if r.confirmed || r.trap.isSome then s0
    else if older.any (fun o => isAcq (loadOrd o.i).1
        || o.elems.any (fun e => r.elems.any (fun x => wordsMeet e.ea e.bytes x.ea x.bytes))) then s0
    else
      let s0 := s0.performFirst (fun st => r.elems.any (fun e => storeMeets st e.ea e.bytes))
      let (l, s) := s0.xlatLoad (loadAcc r.i) s0.cur.c.priv r.elems
      let ws := loadWords l
      let s := if ws.any (fun w => w.2.kind == 4) then s.drain else s
      if (!older.isEmpty && ws.any (fun w => w.2.kind == 4)) || s.deviceWaits ws then s
      else if s.readWaits ws then s0.askRead ws
      else
        let fs := loadFaults l
        let bad := fun lane => if wholeLoad r.i then !fs.isEmpty else fs.any (fun f => f.lane == lane)
        let acq := isAcq (loadOrd r.i).1
        let sc := (loadOrd r.i).2
        let keys := ws.map s.nameOf
        match (if acq then s.checkAccess s.me sc keys false true else some s) with
        | none => s.setRet k { r with trap := some { cls := 5 } }
        | some s =>
          let poison := if scalarReturning r.i then s.wordCause (s.badWord s.me ws) else { cls := 11 }
          let (got, s) := s.readLoad bad l
          let s := (s.fillSpans s.me keys).noteSpans s.me keys
          let s := if acq then s.acquireAfter sc (ws.map (fun w => s.leafKind w.2)) else s
          s.setRet k (r.resolve poison fs got)

/-! ### Commit and fault (R197, R199) -/

/-- The oldest returning access commits when it is confirmed. -/
def State.commitHead (s : State) : State :=
  match s.cur.m.returning with
  | [] => s
  | r :: rest =>
    if !r.confirmed then s
    else
      let h := s.cur
      { s with cur := { h with r := commitRegs r h.r, m := { h.m with returning := rest } }.gaDone r.counted }

/-- The oldest returning access reports its fault: younger ones are cancelled, the lanes that did not fault are written, and
the stream traps at the access. DESIGN CHOICE, log entry 71: the class 5 stop of a Bowler stream has OPND 6 and BTR2 0, for the
checker refuses no address and no operand. -/
def State.faultHead (s : State) : State :=
  match s.cur.m.returning with
  | [] => s
  | r :: rest =>
    match r.trap with
    | none => s
    | some c =>
      if r.confirmed then s
      else
        let h := s.cur
        let regs := rest.foldl (fun (g : Regs) x => g.mark (uses x.i) true) h.r
        let regs := if c.lanes.isEmpty then regs.mark (uses r.i) true else commitRegs r regs
        let ga := rest.foldl (fun l x => match x.counted with
          | some id => opsDrop l id
          | none => l) h.m.ga
        let h := { h with r := regs, y := { h.y with sptr := r.sptr }, m := { h.m with returning := [], ga := ga }
                          c := { h.c with pc := r.pc, arriving := false, wait := none } }
        let s := { s with cur := h.gaDone r.counted }
        s.takeTrap { c with since := r.sibs } (classFn r.i).1 (classFn r.i).2 (if c.cls = 5 then 6 else 5)

/-! ### Issue -/

/-- What each sibling of the executing warp has issued. -/
def State.siblings (s : State) : List (Nat × Nat) :=
  (s.harts.filter (fun h => h.role == .warp && h.live && h.pl.group == s.cur.pl.group)).map (fun h => (h.id, h.c.issued))

/-- A returning access that leaves the issue stage. -/
def State.startRet (s : State) (i : Instr) (r : Ret) : State :=
  let h := s.cur
  { s with cur := { h with
      r := if h.role == .warp then h.r.mark (uses i) false else h.r
      m := { h.m with returning := h.m.returning ++ [{ r with sibs := s.siblings }] } } }

/-- A Bowler stream's load is read and committed before its next instruction (R138, R139). -/
def bowlerLoad (s : State) (o : Out) : Out :=
  match o with
  | .next t =>
    let t := t.rdRet 0
    match t.cur.m.returning with
    | [] => .next t
    | r :: _ =>
      if r.trap.isSome then .next t.faultHead
      else if r.confirmed then .next t.commitHead
      else stall { t with cur := s.cur }
  | o => o

/-- A returning access with its elements: the core's refusals raise class 3, the 64th gather waits (R189), as does what finds
no room for its requests (R12), and the access issues with the stack pointer `sp` after it. -/
def startLoad (i : Instr) (faults : List (Dword × Option Nat)) (mask : Word) (elems : List Elem) (sp : Dword) (s : State) :
    Out :=
  match coreCause faults with
  | some c => trapSettled c (classFn i).1 (classFn i).2 s 5
  | none =>
    let counts := match i with
      | .vgld _ => true
      | _ => false
    if (counts && s.cur.m.ga.length ≥ 63) || !s.requestRoom (framesOf (elems.map (fun e => (e.ea, e.bytes)))) then stall s
    else
      let (id, s) := if counts then s.newId else (0, s)
      let s := if counts then s.mapAcc (fun m => { m with ga := m.ga ++ [{ id := id, done := false }] }) else s
      let r : Ret := { i := i, pc := s.cur.c.pc, mask := mask, elems := elems, got := [], confirmed := false, trap := none,
                       sptr := s.cur.y.sptr, counted := if counts then some id else none }
      let t := s.startRet i r
      let o := retire { t with cur := { t.cur with y := { t.cur.y with sptr := sp } } }
      if s.cur.role == .bowler then bowlerLoad s o else o

/-- The word elements of one register, lane by lane. -/
def laneElems (m : Word) (reg : Nat) (ea : Nat → Dword) : List Elem :=
  (lanesOf m).map (fun l => { lane := l, reg := reg, ea := ea l, bytes := 4 })

/-- The core's checks of lane elements, each aligned to 4 bytes. -/
def laneChecks (h : Hart) (write weight : Bool) (l : List Elem) : List (Dword × Option Nat) :=
  l.map (fun e => (e.ea, coreFault h write weight 4 e.ea))

/-- SLD (R202). -/
def execSld (f : FM) (s : State) : Out :=
  issue (.sld f) f.g s (fun s =>
    let n := stBytes (tySt f.ty)
    let ea := FM.ea f s
    startLoad (.sld f) [(ea, coreFault s.cur false false n ea)] 1 [{ lane := 0, reg := lowS f.d, ea := ea, bytes := n }]
      s.cur.y.sptr s)

/-- VLD (R203). -/
def execVld (f : FM) (s : State) : Out :=
  issue (.vld f) f.g s (fun s =>
    let m := laneMask s.cur f.g
    let es := laneElems m f.d.toNat (fun l => FM.ea f s + BitVec.ofNat 64 (4 * l))
    startLoad (.vld f) (laneChecks s.cur false false es) m es s.cur.y.sptr s)

/-- VGLD (R204, R205). -/
def execVgld (f : FM) (s : State) : Out :=
  issue (.vgld f) f.g s (fun s =>
    let m := laneMask s.cur f.g
    let es := laneElems m f.d.toNat (FM.eaLane f (f.sub.getLsbD 2) (f.sub.toNat % 4) s)
    startLoad (.vgld f) (laneChecks s.cur false false es) m es s.cur.y.sptr s)

/-- WLD (R207). -/
def execWld (f : FM) (s : State) : Out :=
  issue (.wld f) f.g s (fun s =>
    let m := laneMask s.cur f.g
    let es := (List.range (2 ^ (f.sub.toNat % 4))).flatMap (fun j =>
      laneElems m (f.d.toNat + j) (fun l => FM.ea f s + BitVec.ofNat 64 (128 * j + 4 * l)))
    startLoad (.wld f) (laneChecks s.cur false true es) m es s.cur.y.sptr s)

/-- The row of a lane of a tile transfer (R208). -/
def FM.row (f : FM) (s : State) (l : Nat) : Dword :=
  FM.ea f s + BitVec.ofNat 64 l * s.cur.r.getS (lowS f.vx)
/-- The core's checks of a tile transfer: 4n bytes for the address and for the stride (R195). -/
def tileChecks (f : FM) (m : Word) (write : Bool) (s : State) : List (Dword × Option Nat) :=
  let n := 4 * 2 ^ (f.sub.toNat % 4)
  (lanesOf m).map (fun l =>
    let row := FM.row f s l
    (row, if canonical row && (s.cur.r.getS (lowS f.vx)).toNat % n != 0 then some kMISALIGN
          else coreFault s.cur write false n row))

/-- TLD (R208). -/
def execTld (f : FM) (s : State) : Out :=
  issue (.tld f) f.g s (fun s =>
    let m := laneMask s.cur f.g
    let es := (List.range (2 ^ (f.sub.toNat % 4))).flatMap (fun j =>
      laneElems m (f.d.toNat + j) (fun l => FM.row f s l + BitVec.ofNat 64 (4 * j)))
    startLoad (.tld f) (tileChecks f m false s) m es s.cur.y.sptr s)

/-- The core's checks of a stack read of `n` bytes at SPTR, aligned to `al`: every address must be canonical. -/
def popChecks (al n : Nat) (s : State) : List (Dword × Option Nat) :=
  let sp := s.cur.y.sptr
  if sp.toNat % al != 0 then [(sp, some kMISALIGN)]
  else (wordsAt sp n).map (fun va => (va, coreFault s.cur false false 4 va))

/-- SPOP (R209). -/
def execSpop (f : FM) (s : State) : Out :=
  issue (.spop f) f.g s (fun s =>
    let n := f.sub.toNat % 8 + 1
    let sp := s.cur.y.sptr
    let es := (List.range n).map (fun j =>
      ({ lane := 0, reg := lowS f.d + j, ea := sp + BitVec.ofNat 64 (8 * j), bytes := 8 } : Elem))
    startLoad (.spop f) (popChecks 8 (8 * n) s) 1 es (sp + BitVec.ofNat 64 (8 * n)) s)

/-- VPOP (R209): the tag record stands in lane 32 of the elements. -/
def execVpop (f : FM) (s : State) : Out :=
  issue (.vpop f) f.g s (fun s =>
    let n := f.sub.toNat % 8 + 1
    let sp := s.cur.y.sptr
    let tags := (List.range n).map (fun j =>
      ({ lane := 32, reg := f.d.toNat + j, ea := sp + BitVec.ofNat 64 (2 * j), bytes := 2 } : Elem))
    let es := (List.range n).flatMap (fun j =>
      laneElems 0xFFFFFFFF (f.d.toNat + j) (fun l => sp + BitVec.ofNat 64 (16 + 128 * j + 4 * l)))
    startLoad (.vpop f) (popChecks 16 (128 * n + 16) s) 0xFFFFFFFF (tags ++ es) (sp + BitVec.ofNat 64 (128 * n + 16)) s)

/-! ### Scratchpad reads (R206) -/

/-- `n` bytes of the scratchpad at an offset, and whether a word of them is poisoned. -/
def Group.scratchNat (g : Group) (off n : Nat) : Nat × Bool :=
  (memNat g.scratch off n, (List.range ((off % 4 + n + 3) / 4)).any (fun j => g.scratchBad.contains (off / 4 * 4 + 4 * j)))

/-- The poisoned word of a doubleword of the executing stream's scratchpad, the lower first. -/
def State.scratchSite (s : State) (ea : Dword) : ErrSite :=
  let lo := ea.toNat / 4 * 4
  .scratch s.cur.pl.group (if s.myGroup.scratchBad.contains lo then lo else lo + 4)

/-- The lane offset of LLD and LST. -/
def FM.scratchLane (f : FM) (s : State) (l : Nat) : Dword :=
  if f.sub.toNat % 2 = 1 then FM.eaLane f false (f.sub.toNat / 2 % 4) s l else FM.ea f s + BitVec.ofNat 64 (4 * l)

/-- LLD (R206): performed when it executes (R176), so it is confirmed at issue. -/
def execLld (f : FM) (s : State) : Out :=
  issue (.lld f) f.g s (fun s =>
    let g := s.myGroup
    let scalar := f.sub.toNat ≥ 8
    let n := if scalar then stBytes (tySt f.ty) else 4
    let m := if scalar then 1 else laneMask s.cur f.g
    let es := if scalar then [({ lane := 0, reg := lowS f.d, ea := FM.ea f s, bytes := n } : Elem)]
      else laneElems m f.d.toNat (FM.scratchLane f s)
    match coreCause (es.map (fun e => (e.ea, scratchFault g n n e.ea))) with
    | some c => trapSettled c (classFn (.lld f)).1 (classFn (.lld f)).2 s
    | none =>
      let got := es.map (fun e =>
        let x := g.scratchNat e.ea.toNat n
        ({ lane := e.lane, reg := e.reg, val := BitVec.ofNat 64 x.1, bad := x.2 } : Got))
      let r : Ret := { i := .lld f, pc := s.cur.c.pc, mask := m, elems := es, got := [], confirmed := false, trap := none,
                       sptr := s.cur.y.sptr, counted := none }
      let notes := (es.zip got).foldl (fun (s : State) x =>
        if x.2.bad then s.noteRecord (.vreg s.cur.id x.1.reg) (s.recordOf (s.scratchSite x.1.ea)) else s) s
      retire ((if scalar then s else notes).startRet (.lld f) (r.resolve (s.badCause (s.scratchSite (FM.ea f s))) [] got)))

/-! ### The events -/

/-- `f` for the live stream numbered `id`. -/
def State.onLive (s : State) (id : Nat) (f : State → State) : State :=
  if (s.hart? id).any (fun h => h.live) then s.onHart id f else s

/-- RETURNING_ACCESS_COMMIT (R197). -/
def execReturningAccessCommit (h : Nat) (s : State) : Out := .next (s.onLive h (fun s => s.commitHead))

/-- RETURNING_ACCESS_FAULT (R199). -/
def execReturningAccessFault (h : Nat) (s : State) : Out := .next (s.onLive h (fun s => s.faultHead))

end Sys2Proof.Machine
end

