-- ==== Sys2Proof/Machine/Stores.lean ====
section
/-!
DEFINITION. The store-like accesses of class 0x6 (R200 to R204, R206, R208, R209) and the events that perform and report
them.
-/

namespace Sys2Proof.Machine

/-! ### Issue -/

/-- A store-like access that retires now and is performed later (R200). -/
def State.queueStore (s : State) (st : Store) : State := s.mapAcc (fun m => { m with stores := m.stores ++ [st] })

/-- A pending store of the instruction at the stream's slot. -/
def State.newStore (s : State) (i : Instr) (sc : Scope) (elems : List StElem) : Store :=
  { i := i, pc := s.cur.c.pc, elems := elems, range := none, scope := sc, priv := s.cur.c.priv,
    stack := false, counted := none, issuedAt := s.cur.c.issued + 1, faults := [], acks := [], pool := [] }

/-- The scope of a release that stands before an access to words of these kinds (R170). -/
def relScope (sc : Scope) (kinds : List Nat) : Scope :=
  if kinds.any (fun k => k == 1 || k == 4) && scopeNum sc < 6 then .sys else sc

/-- A VSCT enters the ga counter (R204). -/
def State.countStore (s : State) (st : Store) : Store × State :=
  match st.i with
  | .vsct _ =>
    let (id, s) := s.newId
    ({ st with counted := some id }, s.mapAcc (fun m => { m with ga := m.ga ++ [{ id := id, done := false }] }))
  | _ => (st, s)

/-- A store with release ordering: Release, the check, and the store itself in one step (log entry 13). -/
def syncStore (st : Store) (s : State) : Out :=
  let (l, s) := s.xlatStore st.priv (fineStore st.i) st.elems
  let keys := storeKeys s l
  let held := s.ownWaits s.me st.scope keys
  if !held.isEmpty then stall (s.askFor s.me true held)
  else withRelease true (relScope st.scope (keys.map (fun k => s.leafKind k.pw))) s (fun s =>
    match s.checkAccess s.me st.scope keys true (st.elems.all (fun e => e.data.length % 4 == 0)) with
    | none => trapAt st.i { cls := 5 } s
    | some s =>
      let (st, s) := s.countStore st
      retire ((s.queueStore st).performStore s.cur.m.stores.length))

/-- A Bowler store that is written: it is performed once its device has its pool words (R193), and at survivable scope once its
deltas are acknowledged (R194). -/
def State.bowlerWrote (s : State) (st : Store) (before : List OutDelta) (pool : List WKey) : State :=
  let acks := if st.scope == .surv then (s.parity.sent.drop before.length).map (fun d => d.id) else []
  (s.queueStore { st with elems := [], acks := acks, pool := pool }).tidyStores

/-- A Bowler store completes only after its translation; its fault is class 4 at the store (R139). -/
def bowlerStore (st : Store) (rel : Bool) (s : State) : Out :=
  let (l, t) := s.xlatStore st.priv (fineStore st.i) st.elems
  let fs := storeFaults l
  if !fs.isEmpty then trapAt st.i { sliceCause false fs with cls := 4 } t 5
  else
    let keys := storeKeys t l
    let held := t.ownWaits t.me st.scope keys
    if !held.isEmpty then stall (t.askFor t.me true held)
    else withRelease rel (relScope st.scope (keys.map (fun k => t.leafKind k.pw))) t (fun t =>
      match (if rel then t.checkAccess t.me st.scope keys true (st.elems.all (fun e => e.data.length % 4 == 0)) else some t) with
      | none => trapAt st.i { cls := 5 } t
      | some t =>
        let u := ((t.ownSpans t.me st.scope rel false keys).writeStore t.me st.scope rel (fun _ => false) l).noteSpans t.me keys
        retire (u.bowlerWrote st t.parity.sent (keys.filter (fun k => k.pw.kind == 2))))

/-- A store-like access with its elements, after the core's checks. -/
def startStore (i : Instr) (faults : List (Dword × Option Nat)) (ord : Order) (sc : Scope) (elems : List StElem) (s : State) :
    Out :=
  match coreCause faults with
  | some c => trapAt i c s 5
  | none =>
    let counts := match i with
      | .vsct _ => true
      | _ => false
    if (counts && s.cur.m.ga.length ≥ 63) || !s.requestRoom (framesOf (elems.map (fun e => (e.ea, e.data.length)))) then stall s
    else
      let st := s.newStore i sc elems
      match s.cur.role with
      | .bowler => bowlerStore st (isRel ord) s
      | .warp =>
        if isRel ord then syncStore st s
        else
          let (st, s) := s.countStore st
          retire (s.queueStore st)

/-- The bytes of a lane. -/
def wordBytes (w : Word) : List Byte := leBytes 4 w.toNat

/-- SST (R202). -/
def execSst (f : FM) (s : State) : Out :=
  issue (.sst f) f.g s (fun s =>
    let n := stBytes (tySt f.ty)
    let ea := FM.ea f s
    startStore (.sst f) [(ea, coreFault s.cur true false n ea)] f.ord f.sc
      [{ lane := 0, ea := ea, data := leBytes n (s.cur.r.getS (lowS f.d)).toNat }] s)

/-- Lane stores of one register. -/
def laneStores (m : Word) (ea : Nat → Dword) (x : Nat → Word) : List StElem :=
  (lanesOf m).map (fun l => { lane := l, ea := ea l, data := wordBytes (x l) })
/-- The core's checks of lane stores. -/
def storeChecks (h : Hart) (l : List StElem) : List (Dword × Option Nat) :=
  l.map (fun e => (e.ea, coreFault h true false 4 e.ea))

/-- VST (R203). -/
def execVst (f : FM) (s : State) : Out :=
  issue (.vst f) f.g s (fun s =>
    let es := laneStores (laneMask s.cur f.g) (fun l => FM.ea f s + BitVec.ofNat 64 (4 * l))
      (fun l => (s.cur.r.getV f.d.toNat).lane l)
    startStore (.vst f) (storeChecks s.cur es) f.ord f.sc es s)

/-- VSCT (R204). -/
def execVsct (f : FM) (s : State) : Out :=
  issue (.vsct f) f.g s (fun s =>
    let es := laneStores (laneMask s.cur f.g) (FM.eaLane f (f.sub.getLsbD 2) (f.sub.toNat % 4) s)
      (fun l => (s.cur.r.getV f.d.toNat).lane l)
    startStore (.vsct f) (storeChecks s.cur es) f.ord f.sc es s)

/-- TST (R208). -/
def execTst (f : FM) (s : State) : Out :=
  issue (.tst f) f.g s (fun s =>
    let m := laneMask s.cur f.g
    let es := (lanesOf m).flatMap (fun l => (List.range (2 ^ (f.sub.toNat % 4))).map (fun j =>
      ({ lane := l, ea := FM.row f s l + BitVec.ofNat 64 (4 * j),
         data := wordBytes ((s.cur.r.getV (f.d.toNat + j)).lane l) } : StElem)))
    startStore (.tst f) (tileChecks f m true s) f.ord f.sc es s)

/-! ### Scratchpad stores (R206) -/

/-- Bytes written to the scratchpad; a whole word written is no longer poisoned (R340). -/
def Group.scratchPut (g : Group) (off : Nat) (bs : List Byte) : Group :=
  { g with scratch := memWrite g.scratch off bs
           scratchBad := g.scratchBad.filter (fun w => !(off ≤ w && w + 4 ≤ off + bs.length)) }

/-! ### The stack (R177, R209) -/

/-- The limit of SLIM as a signed value. -/
def slimLimit (slim : Dword) : Int := (BitVec.ofNat 57 (getBits slim 10 47 * 1024)).toInt
/-- The checks of a push of `k` bytes with SPTR aligned to `al` (R177). -/
def pushCause (h : Hart) (al k : Nat) : Option Cause :=
  if h.y.sptr.toNat % al != 0 then some { cls := 3, kind := kMISALIGN, va := h.y.sptr }
  else if h.y.sptr.toInt - k < slimLimit h.y.slim then some { cls := 7 }
  else none

/-- A push of `k` bytes: its checks, SPTR lowered, and the store queued. -/
def State.pushed (s : State) (i : Instr) (k : Nat) (elems : List StElem) : State :=
  let sp := s.cur.y.sptr - BitVec.ofNat 64 k
  let s := s.queueStore { s.newStore i .core elems with stack := true }
  { s with cur := { s.cur with y := { s.cur.y with sptr := sp } } }

/-- The first check that a push fails: R177, then those of its addresses. -/
def pushRefused (h : Hart) (al k : Nat) (elems : List StElem) : Option Cause :=
  match pushCause h al k with
  | some c => some c
  | none => coreCause (elems.map (fun e => (e.ea, coreFault h true false 1 e.ea)))

/-- SPUSH (R209). -/
def execSpush (f : FM) (s : State) : Out :=
  issue (.spush f) f.g s (fun s =>
    let n := f.sub.toNat % 8 + 1
    let sp := s.cur.y.sptr - BitVec.ofNat 64 (8 * n)
    let es := (List.range n).map (fun j =>
      ({ lane := 0, ea := sp + BitVec.ofNat 64 (8 * j), data := leBytes 8 (s.cur.r.getS (lowS f.d + j)).toNat } : StElem))
    match pushRefused s.cur 8 (8 * n) es with
    | some c => trapAt (.spush f) c s
    | none =>
      if !s.requestRoom (framesOf (es.map (fun e => (e.ea, e.data.length)))) then stall s else retire (s.pushed (.spush f) (8 * n) es))

/-- VPUSH (R209): the tag record, then every lane of every register. -/
def execVpush (f : FM) (s : State) : Out :=
  issue (.vpush f) f.g s (fun s =>
    let n := f.sub.toNat % 8 + 1
    let k := 128 * n + 16
    let sp := s.cur.y.sptr - BitVec.ofNat 64 k
    let rec_ : StElem := { lane := 32, ea := sp, data :=
      ((List.range n).flatMap (fun j => leBytes 2 (s.cur.r.getV (f.d.toNat + j)).tag.toNat)) ++ List.replicate (16 - 2 * n) 0 }
    let es := (List.range n).flatMap (fun j =>
      laneStores 0xFFFFFFFF (fun l => sp + BitVec.ofNat 64 (16 + 128 * j + 4 * l)) (fun l => (s.cur.r.getV (f.d.toNat + j)).lane l))
    match pushRefused s.cur 16 k (rec_ :: es) with
    | some c => trapAt (.vpush f) c s
    | none =>
      if !s.requestRoom (framesOf ((rec_ :: es).map (fun e => (e.ea, e.data.length)))) then stall s else retire (s.pushed (.vpush f) k (rec_ :: es)))

/-! ### The events -/

/-- `f` for the stream numbered `id`, live or not: accesses outlive their stream (R334, R357). -/
def State.onAny (s : State) (id : Nat) (f : State → State) : State :=
  if (s.hart? id).isSome then s.onHart id f else s

/-- STORE_FAULT_REPORT (R200): the oldest fault found enters the queue of the core. -/
def execStoreFaultReport (h : Nat) (s : State) : Out := .next (s.onAny h (fun s => s.enterRecord))

/-- STACK_SPILL_FILL (R177): a spill writes the oldest pending stack store to the region; a fill changes nothing that a
program sees. -/
def execStackSpillFill (h : Nat) (spill : Bool) (s : State) : Out :=
  .next (if spill then
    s.onAny h (fun s => match s.cur.m.stores.findIdx? (fun st => st.stack && !st.elems.isEmpty) with
      | none => s
      | some k => s.performStore k)
  else s)

end Sys2Proof.Machine
end

