-- ==== Sys2Proof/Machine/Icache.lean ====
section
/-!
DEFINITION. The instruction cache of a die and its fetch agent (R15, R30, R286, R302).
-/

namespace Sys2Proof.Machine

/-- The fetch agent of a core's die as a party that reads. -/
def dieIssuer (core : Nat) : Issuer := { core := core, lvl := 2 }

/-- A word as the fetch agent reads it. It leaves no copy: the instruction cache is no part of the tree. -/
def State.fetchWord (s : State) (core : Nat) (k : WKey) : Word × Bool :=
  if k.pw.kind ≥ 3 then s.weightWord k.pw
  else if k.pw.kind = 2 then (memWord s.mem (pwKey k.pw), s.memBad.contains (pwKey k.pw))
  else if s.gone k.pw then (memWord s.mem (pwKey k.pw), true)
  else match s.rdFind (dieIssuer core) k with
    | some (_, c) => (c.val.getD 0, c.bad)
    | none => s.homeWord k.pw

/-- The words of a line from its first, the lowest word in the lowest bits. -/
def lineOf (ws : List (Word × Bool)) : BitVec 512 :=
  BitVec.ofNat 512 (leNat (ws.flatMap (fun w => leBytes 4 w.1.toNat)))

/-- A line that fails its check: what one with uncorrectable words reads as (R30, R340). -/
def spoiled (l : BitVec 512) : BitVec 512 := if lineParityOk l then l ^^^ (1 <<< 480) else l

/-- The words of the line whose first lies at `pw`. -/
def lineWords (asid : BitVec 16) (addr : Dword) (pw : PWord) : List WKey :=
  (List.range 16).map (fun j => { asid := asid.toNat, va := addr.toNat + 4 * j, pw := { pw with off := pw.off + 4 * j } })

/-- The words of a line that its fetch finds, none where it is refused. -/
def State.fetchKeys (s : State) (core : Nat) (asid : BitVec 16) (addr : Dword) : List WKey :=
  match (s.translate (stackOf core) asid true { fetch := true } addr).1 with
  | .error _ => []
  | .ok pw => lineWords asid addr pw

/-- The words that a fetch of a line waits for: a refresh window (R178), a rebuild (R342, R345) or a directory's entry (R351). -/
def State.fetchWaits (s : State) (core : Nat) (asid : BitVec 16) (addr : Dword) : List WKey :=
  if !canonical addr then []
  else (s.fetchKeys core asid addr).filter (fun k => s.refreshHolds core k.pw || s.waits (dieIssuer core) none k)

/-- What failed where a line fails its check again: its first word that is poisoned, or its first word (R335). -/
def State.fetchSite (s : State) (core : Nat) (asid : BitVec 16) (addr : Dword) : ErrSite :=
  let ks := s.fetchKeys core asid addr
  match (ks.find? (fun k => (s.fetchWord core k).2)).or ks.head? with
  | some k => .word k.pw
  | none => .word { kind := 0, peer := 0, off := 0 }

/-- The line at `addr` fetched for an address space by way of a core's die: the line and USER of its page, or the fault. -/
def State.fetchLine (s : State) (core : Nat) (asid : BitVec 16) (addr : Dword) : Except Nat ILine × State :=
  if !canonical addr then (.error kNONCANON, s)
  else match s.translate (stackOf core) asid true { fetch := true } addr with
    | (.error k, s) => (.error k, s)
    | (.ok pw, s) =>
      let ws := (lineWords asid addr pw).map (s.fetchWord core)
      let d := lineOf ws
      let user := ((s.lookup (stackOf core) asid addr).1.map (fun x => bit x.1 4)).getD false
      (.ok { asid := asid, addr := addr, data := if ws.any (fun w => w.2) then spoiled d else d, user := user, held := [] }, s)

/-- The line of the die's cache. -/
def Die.lineAt (d : Die) (asid : BitVec 16) (addr : Dword) : Option ILine :=
  d.icache.find? (fun l => l.asid == asid && l.addr == addr)

/-- A cache of 4,096 lines keeps room: the oldest line that is not held leaves. -/
def trimLines (l : List ILine) : List ILine :=
  if l.length ≤ 4096 then l
  else match l.reverse.findIdx? (fun x => x.held.isEmpty) with
    | none => l
    | some k => l.eraseIdx (l.length - 1 - k)

/-- A line enters the die's cache. A line that is held stays held. -/
def Die.putLine (d : Die) (x : ILine) : Die :=
  let held := match d.lineAt x.asid x.addr with
    | some y => (x.held ++ y.held).dedup
    | none => x.held
  { d with icache := trimLines ({ x with held := held } :: d.icache.filter (fun l => !(l.asid == x.asid && l.addr == x.addr))) }

/-- The lines of a die that are held (R302). -/
def Die.heldLines (d : Die) : Nat := (d.icache.filter (fun l => !l.held.isEmpty)).length

/-- One line fetched ahead (R302): one that does not translate is skipped, and one whose fetch waits is fetched later. -/
def State.prefetchLine (s : State) (core : Nat) (asid : BitVec 16) (held : List Nat) (addr : Dword) : State :=
  let waits := s.fetchWaits core asid addr
  if !waits.isEmpty then
    let s := s.askFor (dieIssuer core) false waits
    let d := s.die (dieOf core)
    s.setDie (dieOf core) { d with ahead := { asid := asid, addr := addr, core := core, held := held } :: d.ahead }
  else match s.fetchLine core asid addr with
  | (.error _, s) => s
  | (.ok x, s) =>
    let d := s.die (dieOf core)
    let again := (d.lineAt asid addr).any (fun l => !l.held.isEmpty)
    let held := if d.heldLines < 1024 || again then held else []
    s.setDie (dieOf core) (d.putLine { x with held := held })

/-- The waiting prefetches of a line tried again. -/
def State.fetchAhead (s : State) (die : Nat) (asid : BitVec 16) (line : Dword) : State :=
  let d := s.die die
  let mine := fun (x : Prefetch) => x.asid == asid && x.addr == line
  (d.ahead.filter mine).foldl (fun s x => s.prefetchLine x.core asid x.held line)
    (if d.ahead.any mine then s.setDie die { d with ahead := d.ahead.filter (fun x => !mine x) } else s)

end Sys2Proof.Machine
end

