-- ==== Sys2Proof/Machine/Table.lean ====
section
/-!
DEFINITION. The reservation table of a cluster (R140 to R148), the end of a Bowler stream (R136, R146), and the tokens of
commands.
-/

namespace Sys2Proof.Machine

/-! ### Tokens -/

/-- A workgroup that has not ended. -/
def State.groupLives (s : State) (g : Nat) : Bool := (s.groups.any (fun p => p.1 == g)) && (s.group g).phase != .ended

/-- A token written to a stream's register, which becomes full. A workgroup that has ended receives none (R146, R234). -/
def State.fillToken (s : State) (hart group tok : Nat) (v : Dword) : State :=
  if s.groupLives group then
    s.updHart hart (fun h => if h.live then { h with r := (h.r.setS tok v).setFullS tok true } else h)
  else s

/-- The mx counter of a stream reports a request done (R148). -/
def Hart.mxDone (id : Nat) (h : Hart) : Hart := { h with m := { h.m with mx := opsDone h.m.mx id } }

/-! ### Entries -/

/-- An entry that becomes FREE (R140). -/
def Entry.freed (e : Entry) : Entry := { Entry.zero with gen := (e.gen + 1) % 256 }
/-- Entry `n` of a cluster. -/
def State.entry (s : State) (cl n : Nat) : Entry := vget (s.cluster cl).table n Entry.zero
def State.setEntry (s : State) (cl n : Nat) (e : Entry) : State :=
  s.setCluster cl { s.cluster cl with table := vset (s.cluster cl).table n e }
/-- The entries of a table with their numbers. -/
def Cluster.entries (c : Cluster) : List (Nat × Entry) := (List.range 16).map (fun n => (n, vget c.table n Entry.zero))

/-- The token of a matrix request filled: the poster's reads of it are acquires from now on (R146, R163). -/
def State.fillPost (s : State) (hart group tok : Nat) (v : Dword) : State :=
  if s.groupLives group then
    s.updHart hart (fun h => if h.live then { h with r := (h.r.setToken tok v).setFullS tok true } else h)
  else s

/-- A request completes: its token, its counter, and its entry freed (R146, R148). -/
def State.completeEntry (s : State) (cl n : Nat) (status : Dword) : State :=
  let e := s.entry cl n
  let s := s.fillPost e.hart e.group e.tok status
  let s := s.updHart e.hart (Hart.mxDone e.opId)
  s.setEntry cl n e.freed

/-- The status of a stream that ends with code `k` (R146). -/
def endStatus (k : Nat) : Dword := BitVec.ofNat 64 (2 ^ 63 + k)

/-- The executing Bowler stream ends (R136, R146): its launch's entries complete with the status given, and it leaves the
spawn-tree counter. -/
def State.endBowler (s : State) (status : Dword) : State :=
  let cl := clusterOf s.cur.pl.core
  let l := s.cur.pl.launch
  let s := (s.cluster cl).entries.foldl (fun s p =>
    if p.2.st != .free && p.2.launch == l then s.completeEntry cl p.1 status else s) s
  let s := s.uncount l 1
  { s with cur := s.cur.dead, picked := false }

/-! ### Posts (R141) -/

/-- A pinned gang is resident on a cluster. -/
def State.pinnedOn (s : State) (cl : Nat) : Bool :=
  s.groups.any (fun p => p.2.pinned && clusterOf p.2.core == cl && p.2.phase == .resident)
/-- The entries kept for pinned gangs (R145). -/
def State.reserved (s : State) (cl : Nat) : Nat :=
  if s.pinnedOn cl then min (getBits (s.cluster cl).mxcfg 16 3) 4 else 0
/-- The FREE entries of a cluster. -/
def State.freeEntries (s : State) (cl : Nat) : List Nat :=
  ((s.cluster cl).entries.filter (fun p => p.2.st == .free)).map (fun p => p.1)
/-- A post may take an entry now. -/
def State.mayPost (s : State) (cl : Nat) (pinned : Bool) : Bool :=
  (s.freeEntries cl).length > (if pinned then 0 else s.reserved cl)
/-- The priority at which a post enters. -/
def postPri (pinned : Bool) (req : Nat) : Nat := if pinned then 7 else min req 6

/-- A Bowler stream of a launch runs on a cluster. -/
def State.streamOn (s : State) (cl launch : Nat) : Bool :=
  s.allHarts.any (fun h => h.role == .bowler && h.live && clusterOf h.pl.core == cl && h.pl.launch == launch)

/-- A request enters the lowest FREE entry. -/
def State.admitEntry (s : State) (cl : Nat) (e : Entry) : State :=
  match s.freeEntries cl with
  | [] => s
  | n :: _ =>
    let c := s.cluster cl
    let s := s.setEntry cl n { e with st := .posted, gen := (s.entry cl n).gen, age := c.admitted, raised := s.clock, since := s.clock }
    s.setCluster cl { s.cluster cl with admitted := c.admitted + 1 }

/-- Waiting posts of a cluster that item 4 allows now, or that no stream can take (R141, items 4 and 6). -/
def State.waitingPosts (s : State) (cl : Nat) : List Hart :=
  s.allHarts.filter (fun h =>
    h.role == .warp && h.live && clusterOf h.pl.core == cl && !tskHalted h.t.tskid
      && (s.group h.pl.group).phase == .resident
      && (s.mayPost cl (s.group h.pl.group).pinned || !s.streamOn cl h.pl.launch)
      && (match h.c.wait with
        | some { i := .mpost _, .. } => true
        | _ => false))
/-- The order in which waiting streams came (R141, R142). -/
def waitOrder (h : Hart) : List Nat := [(match h.c.wait with | some w => w.start | none => 0), h.pl.core, h.pl.slot]

/-- The request that a stream posts. -/
def State.postEntry (s : State) (f : FA) (opId : Nat) : Entry :=
  let h := s.cur
  { Entry.zero with
    payload := h.r.getS (lowS f.x), req := f.aop.toNat, pri := postPri s.myGroup.pinned f.aop.toNat, tok := lowS f.d,
    hart := h.id, group := h.pl.group, launch := h.pl.launch, opId := opId }

/-- The executing stream's post is admitted: its token is empty, its counter counts it, and the stream goes on. Where no
stream of its launch runs, it takes no entry and its token is filled (R141, item 6). -/
def admitPost (f : FA) (s : State) : Out :=
  if !s.streamOn (clusterOf s.cur.pl.core) s.cur.pl.launch then retire (s.mapRegs (fun r => r.setToken (lowS f.d) (endStatus 3)))
  else
  let (id, s) := s.newId
  let s := s.admitEntry (clusterOf s.cur.pl.core) (s.postEntry f id)
  let s := s.mapAcc (fun m => { m with mx := m.mx ++ [{ id := id, done := false }] })
  retire (s.mapRegs (fun r => r.setFullS (lowS f.d) false))

/-- The workgroups of a cluster whose recorded posts wait to be admitted again (R147). -/
def State.readmitting (s : State) (cl : Nat) : List Nat :=
  (s.groups.filter (fun p => clusterOf p.2.core == cl && p.2.phase == .resident && !p.2.posts.isEmpty
    && (s.mayPost cl p.2.pinned || !s.streamOn cl p.2.launch))).map (fun p => p.1)

/-- The oldest recorded post of a workgroup admitted again as a new post (R141, R147). -/
def State.readmitOne (s : State) (g : Nat) : State :=
  let x := s.group g
  let cl := clusterOf x.core
  match x.posts with
  | [] => s
  | p :: rest =>
    if !s.streamOn cl x.launch then
      ((s.setGroup g { x with posts := rest }).fillPost p.hart g p.tok (endStatus 3)).updHart p.hart (Hart.mxDone p.opId)
    else if s.mayPost cl x.pinned then
      (s.setGroup g { x with posts := rest }).admitEntry cl
        { Entry.zero with
          payload := p.payload, req := p.pri, pri := postPri x.pinned p.pri, tok := p.tok, hart := p.hart, group := g,
          launch := x.launch, opId := p.opId }
    else s

/-- The executing warp's post, which took entry `n`, in its place among those of its core's clock: it changes places with one that a
higher wave slot posted in this clock and that still stands untaken (R142, log entry 92). -/
def State.orderPosts (s : State) (n : Nat) : State :=
  let cl := clusterOf s.cur.pl.core
  let c := s.core s.cur.pl.core
  let new := s.entry cl n
  let later := c.post.bind (fun p =>
    if s.cur.pl.slot < p.1 then (s.cluster cl).entries.find? (fun e => e.2.st == .posted && e.2.opId == p.2) else none)
  let s := match later with
    | none => s
    | some (m, old) =>
      (s.setEntry cl m { new with gen := old.gen, age := old.age }).setEntry cl n { old with gen := new.gen, age := new.age }
  s.setCore s.cur.pl.core { c with post := some (s.cur.pl.slot, new.opId) }

/-- MPOST (R141). -/
def execMpost (f : FA) (s : State) : Out :=
  issue (.mpost f) f.g s (fun s =>
    let cl := clusterOf s.cur.pl.core
    if s.cur.m.mx.length ≥ 63 then stall s
    else match s.release .clus 0xF with
      | (false, s) => stall s
      | (true, s) =>
        if !s.streamOn cl s.cur.pl.launch then
          retire (s.mapRegs (fun r => r.setToken (lowS f.d) (endStatus 3)))
        else
          let older := (s.waitingPosts cl).filter (fun h => h.id != s.cur.id && s.cur.c.wait.isNone)
          if s.mayPost cl s.myGroup.pinned && older.isEmpty && (s.readmitting cl).isEmpty then
            match admitPost f s with
            | .next t => .next (t.orderPosts ((s.freeEntries cl).headD 0))
            | o => o
          else match stallFrom (.mpost f) s with
            | .next t => .next (t.mapCtl (fun c => { c with wait := c.wait.map (fun w =>
                if s.cur.c.wait.isNone then { w with start := (s.core s.cur.pl.core).began } else w) }))
            | o => o)

/-- What waits first at a cluster's table: a stream, or a resumed workgroup with recorded posts, by the clock at which it
reached the table, its core and its wave slot (R141, R142, R147). -/
def State.firstPost (s : State) (cl : Nat) : Option (List Nat) :=
  leastBy ltNats ((s.waitingPosts cl).map (fun h => waitOrder h ++ [0, h.id])
    ++ (s.readmitting cl).map (fun g => [(s.group g).postsAt, (s.group g).core, (s.group g).slot, 1, g]))

/-- MPOST_ADMIT (R141): the first of the waiting posts that may take an entry is admitted. -/
def execMpostAdmit (cluster : Nat) (s : State) : Out :=
  .next (match s.firstPost cluster with
    | some [_, _, _, 1, g] => s.readmitOne g
    | some [_, _, _, 0, id] => s.onHart id (fun s =>
      match s.cur.c.wait with
      | some { i := .mpost f, .. } =>
        match admitPost f s with
        | .next t => t
        | _ => s
      | _ => s)
    | _ => s)

/-- ENTRY_AGE_RAISE (R143): an untaken entry that has waited a whole interval rises by one level, to 6 at most. -/
def execEntryAgeRaise (cluster entry : Nat) (s : State) : Out :=
  let e := s.entry cluster entry
  let iv := max (getBits (s.cluster cluster).mxcfg 0 16) 1 * 1024
  .next (if e.st == .posted && e.pri < 6 && e.raised + iv ≤ s.clock then
    s.setEntry cluster entry { e with pri := e.pri + 1, raised := e.raised + iv } else s)

end Sys2Proof.Machine
end

