-- ==== Sys2Proof/Machine/Control.lean ====
section
/-!
DEFINITION. Class 0x1: control transfers, divergence, barriers, enqueues and prefetch (R294 to R303, R262).
-/

namespace Sys2Proof.Machine

/-! ### Branches (R299) -/

/-- The target of a relative transfer (R52). -/
def FB.target (f : FB) (pc : Dword) : Dword :=
  lineAddr pc + (f.disp.signExtend 64 <<< 6) + f.slot.zeroExtend 64

/-- A transfer taken or not. -/
def branch (taken : Bool) (t : Dword) (s : State) : Out := if taken then transfer t s else retire s

/-- BR (R299). -/
def execBr (f : FB) (s : State) : Out := issue (.br f) f.g s (fun s => transfer (FB.target f s.cur.c.pc) s)

/-- BRC (R299). -/
def execBrc (f : FB) (s : State) : Out :=
  issue (.brc f) f.g s (fun s => branch (s.cur.r.getB f.ba.toNat != f.bn) (FB.target f s.cur.c.pc) s)

/-- BRI (R299). -/
def execBri (f : FB) (s : State) : Out := issue (.bri f) f.g s (fun s => transfer (s.cur.r.getS f.sa.toNat) s)

/-- LOOP (R299). -/
def execLoop (f : FB) (s : State) : Out :=
  issue (.loop f) f.g s (fun s =>
    let x := s.cur.r.getS f.sa.toNat - 1
    branch (x != 0) (FB.target f s.cur.c.pc) (s.mapRegs (fun r => r.setS f.sa.toNat x)))

/-- BRANY (R299). -/
def execBrany (f : FB) (s : State) : Out :=
  issue (.brany f) f.g s (fun s =>
    let m := laneMask s.cur f.g
    branch ((s.cur.r.getP f.pa.toNat &&& m) != 0) (FB.target f s.cur.c.pc) s)

/-- BRALL (R299). -/
def execBrall (f : FB) (s : State) : Out :=
  issue (.brall f) f.g s (fun s =>
    let m := laneMask s.cur f.g
    branch ((s.cur.r.getP f.pa.toNat &&& m) == m && m != 0) (FB.target f s.cur.c.pc) s)

/-! ### CALL and RET (R300) -/

/-- CALL. -/
def execCall (f : FB) (s : State) : Out :=
  issue (.call f) f.g s (fun s =>
    let t := if f.sub = 1 then s.cur.r.getS f.sa.toNat else FB.target f s.cur.c.pc
    let back := nextPc s.cur.c.pc
    match s.cur.role with
    | .bowler =>
      if s.cur.bow.rstack.length ≥ 8 then trapAt (.call f) { cls := 7 } s
      else transfer t (s.mapCur (fun h => { h with bow := { h.bow with rstack := back :: h.bow.rstack } }))
    | .warp =>
      let es : List StElem := [{ lane := 0, ea := s.cur.y.sptr - 8, data := leBytes 8 back.toNat }]
      match pushRefused s.cur 8 8 es with
      | some c => trapAt (.call f) c s
      | none =>
        if !s.requestRoom (framesOf (es.map (fun e => (e.ea, e.data.length)))) then stall s
        else transfer t (s.pushed (.call f) 8 es))

/-- RET. Its read is made at once, after the warp's own stores to the word. -/
def execRet (f : FB) (s : State) : Out :=
  issue (.ret f) f.g s (fun s =>
    match s.cur.role with
    | .bowler =>
      match s.cur.bow.rstack with
      | [] => trapAt (.ret f) { cls := 7 } s
      | t :: rest => transfer t (s.mapCur (fun h => { h with bow := { h.bow with rstack := rest } }))
    | .warp =>
      let sp := s.cur.y.sptr
      match coreCause (popChecks 8 8 s) with
      | some c => trapAt (.ret f) c s
      | none =>
        let s := s.ownStoresFirst sp 8
        match s.xlatWords {} s.cur.c.priv (wordsAt sp 8) with
        | (.error e, s) => trapAt (.ret f) { cls := 3, kind := e.2, va := e.1 } s
        | (.ok ws, s) =>
          if s.readWaits ws then stall (s.askRead ws)
          else
          let poison := s.wordCause (s.badWord s.me ws)
          let ((x, bad), s) := s.readElem s.me sp 8 ws
          let s := (s.fillSpans s.me (ws.map s.nameOf)).noteSpans s.me (ws.map s.nameOf)
          if bad then trapAt (.ret f) poison s
          else transfer x { s with cur := { s.cur with y := { s.cur.y with sptr := sp + 8 } } })

/-! ### Barriers (R296 to R298) -/

/-- The scope code of a format X instruction. -/
def FX.scope (f : FX) : Scope := scopeOfCode (f.sub.truncate 3)

/-- The scope of the barrier at which a warp waits. -/
def barScope (h : Hart) : Scope :=
  match h.c.wait with
  | some { i := .bar f, .. } => FX.scope f
  | some { i := .barg f, .. } => FX.scope f
  | _ => .core

/-- A warp released from its barrier acquires and goes on after it. -/
def State.passBarrier (s : State) (id : Nat) : State :=
  s.onHart id (fun s =>
    let s := s.acquireFor (barScope s.cur) 0x15
    s.mapCtl (fun c => { c with pc := nextPc c.pc, arrivedBar := false, arrivedGang := false, wait := none }))

/-- The barrier of a workgroup completes its phase when its count is reached (R296). -/
def State.completeBar (s : State) (g : Nat) : State :=
  match (s.group g).bcount with
  | none => s
  | some n =>
    let live := s.warpsOf g
    let arrived := live.filter (fun h => h.c.arrivedBar)
    if !arrived.isEmpty && arrived.length ≥ (if n = 0 then live.length else n) then
      let s := s.setGroup g { s.group g with bcount := none }
      arrived.foldl (fun s h => s.passBarrier h.id) s
    else s

/-- The gang barrier completes when every workgroup that has not ended has arrived (R297). -/
def State.completeGang (s : State) (gang : Nat) : State :=
  let gs := (s.gang gang).groups.filter (fun g => (s.group g).phase != .ended)
  let live := gs.flatMap (fun g => s.warpsOf g)
  if !live.isEmpty && live.all (fun h => h.c.arrivedGang) then live.foldl (fun s h => s.passBarrier h.id) s else s

/-- A warp leaves the barrier and traps there: its count can no longer be reached (R296). -/
def State.stuckTrap (s : State) (id : Nat) : State :=
  s.onHart id (fun s =>
    let s := s.mapCtl (fun c => { c with arrivedBar := false, wait := none })
    s.takeTrap { cls := 9, reason := 3 } 1 0x0D)

/-- What the retirement of a warp of `g` does to the barriers. -/
def State.settleBarriers (s : State) (g : Nat) : State :=
  let s := s.completeBar g
  let s := if (s.group g).seed then s else s.completeGang (s.group g).gang
  match s.barrierStuck g with
  | some id => s.stuckTrap id
  | none => s

/-- The executing warp has issued its barrier and waits there. -/
def State.arrive (s : State) (i : Instr) (gang : Bool) : State :=
  let h := s.cur.counted 1
  { s with
    cur := { h with c := { h.c with wait := some { i := i, start := s.now, seen := s.now }, arrivedBar := !gang, arrivedGang := gang } }
    picked := false }

/-- BAR (R296). -/
def execBar (f : FX) (s : State) : Out :=
  issue (.bar f) f.g s (fun s =>
    if s.cur.c.arrivedBar then stall s
    else match s.release (FX.scope f) 0x2B with
      | (false, s) => stall s
      | (true, s) =>
        let n := f.imm.toNat % 32
        let g := s.cur.pl.group
        if n > (s.warpsOf g).length then trapAt (.bar f) { cls := 9, reason := 1 } s
        else if s.myGroup.bcount.any (fun m => m != n) then trapAt (.bar f) { cls := 9, reason := 2 } s
        else
          let s := s.setMyGroup { s.myGroup with bcount := some n }
          .next ((s.arrive (.bar f) false).completeBar g))

/-- BARG (R297). -/
def execBarg (f : FX) (s : State) : Out :=
  issue (.barg f) f.g s (fun s =>
    let g := s.myGroup
    if s.cur.c.arrivedGang then stall s
    else if g.seed then trapAt (.barg f) { cls := 9, reason := 5 } s
    else if scopeNum (FX.scope f) < (s.launch s.cur.pl.launch).hdr.coloc then trapAt (.barg f) { cls := 9, reason := 4 } s
    else match s.release (FX.scope f) 0x2B with
      | (false, s) => stall s
      | (true, s) => .next ((s.arrive (.barg f) true).completeGang g.gang))

/-! ### Divergence (R294, R295, R301) -/

/-- The pending join with the lowest code address, and the others. -/
def lowestJoin (l : List Join) : Option Join := leastBy (fun a b => decide (a.addr.toNat < b.addr.toNat)) l

/-- The executing warp retires once its stores have ended, or waits (R337). A record that its handler has left raises class 4
at the instruction, as a double fault (R330). -/
def retireOrWait (s : State) : Out :=
  let s := s.drain
  if storesEnded s.cur ∧ s.cur.m.sfrecs.isEmpty then
    let g := s.cur.pl.group
    .next (s.retireWarp.settleBarriers g)
  else if storesEnded s.cur ∧ tsInh s.cur.t.tstat then .next (s.endErr 4 s.cur.c.pc)
  else stall s

/-- EM left at `em` by an instruction that goes on at the next slot, with the empty-mask rule (R295). -/
def leaveMask (em : Word) (s : State) : Out :=
  if em != 0 then retire (s.mapCtl (fun c => { c with em := em }))
  else match lowestJoin s.cur.c.joins with
    | some j =>
      transfer j.addr (s.mapCtl (fun c => { c with em := j.mask, joins := c.joins.filter (fun x => x.addr != j.addr) }))
    | none => retireOrWait s

/-- EXIT (R301, R136). -/
def execExit (f : FX) (s : State) : Out :=
  issue (.exit f) f.g s (fun s =>
    match s.cur.role with
    | .bowler => .next (s.endBowler (endStatus 1))
    | .warp => retireOrWait s)

/-- MSET em (R301). -/
def execMsetEm (f : FX) (s : State) : Out :=
  issue (.msetEm f) f.g s (fun s => retire (s.mapRegs (fun r => r.setP f.pa.toNat s.cur.c.em)))

/-- MSET parked (R301). -/
def execMsetParked (f : FX) (s : State) : Out :=
  issue (.msetParked f) f.g s (fun s =>
    retire (s.mapRegs (fun r => r.setP f.pa.toNat (s.cur.c.joins.foldl (fun acc j => acc ||| j.mask) 0))))

/-- PARK (R301). -/
def execPark (f : FB) (s : State) : Out :=
  issue (.park f) f.g s (fun s =>
    let h := s.cur
    let m := laneMask h f.g &&& h.r.getP f.pa.toNat
    let t := FB.target f h.c.pc
    if m = 0 then retire s
    else
      let held := h.c.joins.any (fun j => j.addr == t)
      if !held && h.c.joins.length ≥ 16 then trapAt (.park f) { cls := 7 } s
      else
        let joins := if held then h.c.joins.map (fun j => if j.addr = t then { j with mask := j.mask ||| m } else j)
          else h.c.joins ++ [{ addr := t, mask := m }]
        leaveMask (h.c.em &&& ~~~ m) (s.mapCtl (fun c => { c with joins := joins })))

/-- JOIN (R301): it runs whatever its guard. -/
def execJoin (f : FX) (s : State) : Out :=
  issueWith true (.join f) f.g s (fun s =>
    let c := s.cur.c
    match c.joins.find? (fun j => j.addr == c.pc) with
    | none => retire s
    | some j =>
      retire (s.mapCtl (fun c => { c with em := c.em ||| j.mask, joins := c.joins.filter (fun x => x.addr != j.addr) })))

/-- LEXIT (R301). -/
def execLexit (f : FX) (s : State) : Out :=
  issue (.lexit f) f.g s (fun s =>
    let m := laneMask s.cur f.g &&& s.cur.r.getP f.pa.toNat
    leaveMask (s.cur.c.em &&& ~~~ m) s)

/-! ### Enqueue (R262) -/

/-- Boundary `k` of a header: the sum of the widths below it (R255). -/
def Header.bound (h : Header) (k : Nat) : Nat := (h.widths.take k).foldl (· + ·) 0
/-- The whole of the widths. -/
def Header.total (h : Header) : Nat := h.bound h.widths.length
/-- Warps in a workgroup and workgroups in a gang (R256). -/
def Header.warps (h : Header) : Nat := 2 ^ (h.bound h.wgb - 5)
def Header.gangSize (h : Header) : Nat := 2 ^ (h.bound h.gb - h.bound h.wgb)
/-- Workgroup numbers in the grid. -/
def Header.grid (h : Header) : Nat := 2 ^ (h.total - h.bound h.wgb)

/-- An enqueue's range in its place in its launch's pending list: last, but before one that a warp of a higher wave slot of the core
was granted in this core clock (R263, log entry 92). -/
def State.placeRange (s : State) (x : Pending) (l : List Pending) : List Pending :=
  match (s.core s.cur.pl.core).enq with
  | none => l ++ [x]
  | some (slot, launch, at_) =>
    let k := l.findIdx (fun y => match y with
      | .range _ _ _ _ born => born == at_
      | _ => false)
    if s.cur.pl.slot < slot && launch == s.cur.pl.launch then l.take k ++ x :: l.drop k else l ++ [x]

/-- ENQ (R262, R302). -/
def execEnq (f : FX) (s : State) : Out :=
  issue (.enq f) f.g s (fun s =>
    match s.release (FX.scope f) 0x2B with
    | (false, s) => stall s
    | (true, s) =>
      let first := (s.cur.r.getS f.sa.toNat).toNat
      let n := (s.cur.r.getS f.sd.toNat).toNat
      let l := s.launch s.cur.pl.launch
      let hd := l.hdr
      if n = 0 then retire s
      else if first % hd.gangSize ≠ 0 ∨ n % hd.gangSize ≠ 0 ∨ first + n > hd.grid then
        trapAt (.enq f) { cls := 10, reason := 23 } s
      else if l.counter + n * hd.warps > 2 ^ 48 - 1 then trapAt (.enq f) { cls := 10, reason := 24 } s
      else
        let t := s.setLaunch s.cur.pl.launch { l with
          counter := l.counter + n * hd.warps
          pending := s.placeRange (.range first n (s.cur.r.getS f.sb.toNat) (FX.scope f) s.clock) l.pending }
        retire (t.setCore s.cur.pl.core { s.core s.cur.pl.core with enq := some (s.cur.pl.slot, s.cur.pl.launch, s.clock) }))

/-! ### The remaining forms (R302) -/

/-- YIELD. -/
def execYield (f : FX) (s : State) : Out :=
  issue (.yield f) f.g s (fun s =>
    retire { s with cur := { s.cur with sch := { s.cur.sch with lastPick := some s.clock, unpicked := 0 } } })

/-- NAPC. -/
def execNapc (f : FX) (s : State) : Out :=
  issue (.napc f) f.g s (fun s =>
    let n := (s.cur.r.getS f.sa.toNat).toNat % 2 ^ 32
    retire (s.mapCtl (fun c => { c with napEnd := if n = 0 then none else some (s.now + n) })))

/-- PFH. -/
def execPfh (f : FX) (s : State) : Out :=
  issue (.pfh f) f.g s (fun s =>
    let n := (s.cur.r.getS f.sb.toNat).toNat % 2 ^ 16
    let a := lineAddr (s.cur.r.getS f.sa.toNat)
    let held := if f.sub = 1 ∧ s.myGroup.pinned then [s.myGroup.gang] else []
    let core := s.cur.pl.core
    let asid := s.asidOf s.cur
    retire ((List.range n).foldl (fun s j => s.prefetchLine core asid held (a + BitVec.ofNat 64 (64 * j))) s))

end Sys2Proof.Machine
end

