-- ==== Sys2Proof/Machine/ErrorLog.lean ====
section
/-!
DEFINITION. The package's error log (R341) and the writes that the package's own units make to local HBM.
-/

namespace Sys2Proof.Machine

/-- Bytes written to local HBM at their home by a unit of the package, word by word. -/
def State.hbmPut (s : State) (off : Nat) (bs : List Byte) : State :=
  (List.range ((off % 4 + bs.length + 3) / 4)).foldl (fun s j =>
    let p := pieceOf (BitVec.ofNat 64 off) bs j
    s.homeWrite { kind := 0, peer := 0, off := off / 4 * 4 + 4 * j } (fun w => setBytes w p.1 p.2) (p.2.length ≥ 4)) s

/-- A record of the log (R341), before its index is known, with what failed. -/
structure ErrRec where
  sites : List ErrSite
  addr : Nat
  source : Nat
  action : Nat
  unit : Nat
  req : Dword
  deriving DecidableEq, Repr

/-- The requester field of an access by a core of this package. -/
def State.requester (s : State) (core : Nat) : Dword := BitVec.ofNat 64 (s.pkg.toNat * 2 ^ 16 + core % 512)
/-- No access caused the record. -/
def noRequester : Dword := 0xFFFFFFFFFFFFFFFF

/-- A record logged: written and announced while the log has room, else counted in LOST. -/
def State.logError (s : State) (r : ErrRec) : State :=
  let fe := s.fe
  let n := getBits fe.errcfg 0 4
  let used := (fe.errprod.toNat + 2 ^ 32 - fe.errcons.toNat) % 2 ^ 32
  if n = 0 ∨ used ≥ 2 ^ n then
    { s with fe := { fe with errcfg := putBits fe.errcfg 32 32 (min (getBits fe.errcfg 32 32 + 1) (2 ^ 32 - 1)) } }
  else
    let k := fe.errprod.toNat % 2 ^ 32
    let bs := leBytes 8 r.addr ++ leBytes 1 r.source ++ leBytes 1 r.action ++ leBytes 2 r.unit ++ leBytes 4 k
      ++ leBytes 8 r.req.toNat ++ leBytes 8 0
    let s := { s with fe := { fe with errprod := BitVec.ofNat 64 ((k + 1) % 2 ^ 32) } }
    let s := s.hbmPut (getBits fe.errbase 12 40 * 4096 + 32 * (k % 2 ^ n)) bs
    let s := r.sites.foldl (fun s e => s.noteRecord e (BitVec.ofNat 32 k)) s
    s.raise (machineEvent 0x80000400 (BitVec.ofNat 64 k))

end Sys2Proof.Machine
end

