-- ==== Sys2Proof/Machine/Atomic.lean ====
section
/-!
DEFINITION. Class 0x7: atomics (R211 to R213), waits (R214 to R216) and tickets (R217). An atomic is one step (log entry
14).
-/

namespace Sys2Proof.Machine

/-! ### The read-modify-write -/

/-- EA of format A (R195). -/
def FA.ea (f : FA) (s : State) : Dword := s.cur.r.getS f.sa.toNat + f.off.signExtend 64
/-- EA(l) of R213. -/
def FA.eaLane (f : FA) (s : State) (l : Nat) : Dword :=
  s.cur.r.getS f.sa.toNat + ((s.cur.r.getV f.x.toNat).lane l).zeroExtend 64 + f.off.signExtend 64

/-- The new value of an atomic (R211): `w` its width, `sg` signed. -/
def atomNew (op w : Nat) (sg : Bool) (old x : Nat) : Nat :=
  let a := old % 2 ^ w
  let b := x % 2 ^ w
  if op = 0 then b
  else if op = 1 then (a + b) % 2 ^ w
  else if op = 2 then Nat.land a b
  else if op = 3 then Nat.lor a b
  else if op = 4 then Nat.xor a b
  else if op = 5 then (if valOf w sg b < valOf w sg a then b else a)
  else if valOf w sg a < valOf w sg b then b else a

/-- A number from words, the lowest first. -/
def wordsNat (l : List (Word × Bool)) : Nat := leNat (l.flatMap (fun w => leBytes 4 w.1.toNat))

/-- The words of an atomic owned by the executing stream (R173) or recalled to their home (R212): their old values. The ownership
writes nothing. -/
def State.atomOwn (s : State) (i : Issuer) (sc : Scope) : List (Dword × PWord) → List (Word × Bool) × State
  | [] => ([], s)
  | x :: rest =>
    let top := s.levelOf i sc x.2
    let (w, s) :=
      if top ≥ 6 then
        let s := (s.heard x.2).recall x.2 (s.needOf i (chainLevels i 5) (s.nameOf x))
        (s.homeWord x.2, s)
      else
        let (w, _, s) := (s.ownOnly i (s.ownLevel i top (s.nameOf x) true) (s.nameOf x)).rd i (s.nameOf x)
        (w, s)
    let (ws, s) := s.atomOwn i sc rest
    (w :: ws, s)

/-- The words of an atomic written with a number. -/
def State.atomWrite (s : State) (i : Issuer) (sc : Scope) (new : Nat) : Nat → List (Dword × PWord) → State
  | _, [] => s
  | j, x :: rest =>
    let w := BitVec.ofNat 32 (new / 2 ^ (32 * j))
    let top := s.levelOf i sc x.2
    let s := if top ≥ 6 then (s.homeWrite x.2 (fun _ => w) true).homeServes i.core x.2
      else (s.ownAt i top (s.ownLevel i top (s.nameOf x) true) (s.nameOf x) (fun _ => w) true).2
    s.atomWrite i sc new (j + 1) rest

/-- A remote atomic that finds an uncorrectable word has its home log a record, and on a protected page schedule its rebuild
(R212, R342); a peer's home does so itself. -/
def State.atomPoison (s : State) (i : Issuer) (sc : Scope) (x : Dword × PWord) : State :=
  if s.levelOf i sc x.2 ≥ 6 ∧ x.2.kind = 0 then
    (s.logError { sites := [.word x.2], addr := x.2.off, source := 0, action := 0, unit := homeUnit x.2.off,
                  req := s.requester i.core }).askWord (some i.core) false x.2
  else s

/-- One atomic on translated words: the old value, or the word that is uncorrectable, and nothing is written. -/
def State.atomStep (s : State) (i : Issuer) (sc : Scope) (xs : List (Dword × PWord)) (f : Nat → Option Nat) :
    Except (Dword × PWord) Nat × State :=
  match xs.find? (fun x => s.gone x.2) with
  | some x => (.error x, s)
  | none =>
    let (ws, s) := s.atomOwn i sc xs
    match (xs.zip ws).find? (fun x => x.2.2) with
    | some x => (.error x.1, s.atomPoison i sc x.1)
    | none =>
      let old := wordsNat ws
      match f old with
      | none => (.ok old, s)
      | some new => (.ok old, s.atomWrite i sc new 0 xs)

/-- A survivable atomic whose write formed deltas is not complete before their acknowledgements (R173, R194): it stays among the
stream's stores, and holds its next instruction back. `before` counts the deltas unacknowledged before it. -/
def State.holdSurv (s : State) (i : Instr) (sc : Scope) (before : Nat) : State :=
  let acks := (s.parity.sent.drop before).map (fun d => d.id)
  if sc == .surv && !s.acksIn acks then s.queueStore { s.newStore i sc [] with acks := acks } else s

/-- The acquire that an ordering asks for after an access to these words. -/
def State.acqAfter (s : State) (o : Order) (sc : Scope) (ws : List (Dword × PWord)) : State :=
  if isAcq o then s.acquireAfter sc (ws.map (fun w => s.leafKind w.2)) else s

/-- An atomic on a scalar: the core's check, translation, release, the scope checker and the read-modify-write, then
`k` with the old value (R211, R218). -/
def scalarAtom (i : Instr) (ord : Order) (sc : Scope) (al : Nat) (base ea : Dword) (n : Nat) (f : Nat → Option Nat) (s : State)
    (k : Nat → State → Out) : Out :=
  match coreCause [(base, coreFault s.cur true false al base)] with
  | some c => trapAt i c s 5
  | none =>
    match s.xlatWords { write := true, atomic := true } s.cur.c.priv (wordsAt ea n) with
    | (.error e, s) => trapAt i { cls := 3, kind := e.2, va := refusedAt ea e.1 } s 5
    | (.ok ws, s) =>
      let s := s.ownStoresFirst ea n
      let held := s.ownWaits s.me sc (ws.map s.nameOf) true
      if !held.isEmpty then stall (s.askFor s.me true held)
      else withRelease (isRel ord) (relScope sc (ws.map (fun w => s.leafKind w.2))) s (fun s =>
        match s.checkAccess s.me sc (ws.map s.nameOf) true false with
        | none => trapAt i { cls := 5 } s
        | some s =>
          let before := s.parity.sent.length
          match (s.ownSpans s.me sc true true (ws.map s.nameOf)).atomStep s.me sc ws f with
          | (.error x, s) => trapAt i (s.wordCause (some x)) s 5
          | (.ok old, s) => k old (((s.noteSpans s.me (ws.map s.nameOf)).acqAfter ord sc ws).holdSurv i sc before))

/-- SATOM (R211). -/
def execSatom (f : FA) (s : State) : Out :=
  issue (.satom f) f.g s (fun s =>
    let t := tySt f.ty
    let ea := FA.ea f s
    let x := (s.cur.r.getS (lowS f.x)).toNat
    scalarAtom (.satom f) f.ord f.sc (stBytes t) ea ea (stBytes t)
      (fun old => some (atomNew f.aop.toNat (stWidth t) (WellFormed.stSigned t) old x)) s
      (fun old s => retire (s.mapRegs (fun r => r.setS (lowS f.d) (loadVal t (BitVec.ofNat 64 old))))))

/-- SCAS (R211). -/
def execScas (f : FA) (s : State) : Out :=
  issue (.scas f) f.g s (fun s =>
    let t := tySt f.ty
    let ea := FA.ea f s
    let w := stWidth t
    let x := (s.cur.r.getS (lowS f.x)).toNat % 2 ^ w
    let y := (s.cur.r.getS (lowS f.y)).toNat % 2 ^ w
    scalarAtom (.scas f) f.ord f.sc (stBytes t) ea ea (stBytes t) (fun old => if old = x then some y else none) s
      (fun old s => retire (s.mapRegs (fun r => r.setS (lowS f.d) (loadVal t (BitVec.ofNat 64 old))))))

/-! ### Vector atomics (R213) -/

/-- A lane of a vector atomic with its translation. -/
structure LaneX where
  lane : Nat
  ea : Dword
  ws : Except (Dword × Nat) (List (Dword × PWord))

/-- Every lane translated. -/
def State.xlatLanes (s : State) : List (Nat × Dword) → List LaneX × State
  | [] => ([], s)
  | (l, ea) :: rest =>
    let (r, s) := s.xlatWords { write := true, atomic := true } s.cur.c.priv [ea]
    let (rs, s) := s.xlatLanes rest
    ({ lane := l, ea := ea, ws := r } :: rs, s)

/-- The lanes in ascending order: for each the old value, or none where its word is uncorrectable, whose record then goes with
register `d`. -/
def State.atomLanes (s : State) (sc : Scope) (d : Nat) (f : Nat → Nat → Option Nat) : List LaneX → List (Nat × Option Nat) × State
  | [] => ([], s)
  | x :: rest =>
    match x.ws with
    | .error _ => s.atomLanes sc d f rest
    | .ok ws =>
      match s.atomStep s.me sc ws (f x.lane) with
      | (.ok o, s) =>
        let (os, s) := s.atomLanes sc d f rest
        ((x.lane, some o) :: os, s)
      | (.error b, s) =>
        let (os, s) := (s.noteRecord (.vreg s.cur.id d) (s.recordOf (.word b.2))).atomLanes sc d f rest
        ((x.lane, none) :: os, s)

/-- What a vector atomic writes: the old values of the lanes that ended, and the tag (R90, R212). -/
def atomResult (d : Nat) (ty : BitVec 4) (l : List (Nat × Option Nat)) (r : Regs) : Regs :=
  if l.isEmpty then r
  else
    let tag := if l.any (fun x => x.2.isNone) then poisonTag else mkTag ty.toNat 0
    r.writeV d (l.foldl (fun v x => match x.2 with
      | some o => vset v x.1 (BitVec.ofNat 32 o)
      | none => v) (r.getV d).lanes) tag

/-- A vector atomic; `new` gives the new word of a lane from its old one. -/
def vectorAtom (i : Instr) (f : FA) (new : State → Nat → Nat → Option Nat) (s : State) : Out :=
  issue i f.g s (fun s0 =>
    let lanes := (lanesOf (laneMask s0.cur f.g)).map (fun l => (l, FA.eaLane f s0 l))
    match coreCause (lanes.map (fun x => (x.2, coreFault s0.cur true false 4 x.2))) with
    | some c => trapAt i c s0
    | none =>
      let s := s0.performFirst (fun st => lanes.any (fun x => storeMeets st x.2 4))
      let (ls, s) := s.xlatLanes lanes
      let ws := ls.flatMap (fun x => match x.ws with
        | .ok ws => ws
        | .error _ => [])
      let fs := ls.foldl (fun acc x => match x.ws with
        | .error e => addLane acc { lane := x.lane, kind := e.2, va := e.1 }
        | .ok _ => acc) []
      let held := s.ownWaits s.me f.sc (ws.map s.nameOf) true
      if !held.isEmpty then stall (s.askFor s.me true held)
      else withRelease (isRel f.ord) (relScope f.sc (ws.map (fun w => s.leafKind w.2))) s (fun s =>
        match s.checkAccess s.me f.sc (ws.map s.nameOf) true false with
        | none => trapAt i { cls := 5 } s
        | some s =>
          let before := s.parity.sent.length
          let (os, s) := (s.ownSpans s.me f.sc true true (ws.map s.nameOf)).atomLanes f.sc f.d.toNat (new s0) ls
          let s := (((s.noteSpans s.me (ws.map s.nameOf)).mapRegs (atomResult f.d.toNat f.ty os)).acqAfter f.ord f.sc ws).holdSurv i f.sc before
          if fs.isEmpty then retire s else trapAt i (sliceCause true fs) s))

/-- A lane of Y and of the destination. -/
def FA.yLane (f : FA) (s : State) (l : Nat) : Nat := ((s.cur.r.getV f.y.toNat).lane l).toNat
def FA.dLane (f : FA) (s : State) (l : Nat) : Nat := ((s.cur.r.getV f.d.toNat).lane l).toNat

/-- VATOM (R213). -/
def execVatom (f : FA) (s : State) : Out :=
  vectorAtom (.vatom f) f (fun s l old => some (atomNew f.aop.toNat 32 (f.ty == 1) old (FA.yLane f s l))) s

/-- VCAS (R213). -/
def execVcas (f : FA) (s : State) : Out :=
  vectorAtom (.vcas f) f (fun s l old => if old = FA.dLane f s l then some (FA.yLane f s l) else none) s

/-- A word of FATOM: every element of it updated (R213). -/
def fatomWord (ty : BitVec 4) (op : Nat) (old y : Word) : Word :=
  let F := fmtOf ty.toNat
  let P := WellFormed.perLane ty.toNat
  (List.range P).foldl (fun w e =>
    let a := elemOf P old e
    let b := elemOf P y e
    putElem P w e (if op = 0 then (faddOp F 0 a b).1 else fminmaxOp F (op == 2) a b)) 0

/-- FATOM (R213). -/
def execFatom (f : FA) (s : State) : Out :=
  vectorAtom (.fatom f) f (fun s l old =>
    some (fatomWord f.ty f.aop.toNat (BitVec.ofNat 32 old) (BitVec.ofNat 32 (FA.yLane f s l))).toNat) s

/-! ### Waits (R214 to R217) -/

/-- The clock at which the instruction began to wait. -/
def State.waitStart (s : State) : Nat :=
  match s.cur.c.wait with
  | some w => w.start
  | none => s.now

/-- The span dropped before each read of WAITA: pool copies, or the clean copies that an acquire removes (R184, R214). -/
def State.dropSpan (s : State) (sc : Scope) (ws : List (Dword × PWord)) : State :=
  ws.foldl (fun s x => if x.2.kind = 2 then s.poolDrop s.me (s.nameOf x) else s.cinvWord sc x) s

/-- A wait on memory: `n` bytes at `ea` read at `sc` after the span is dropped. `done` looks at the value; `k` ends it. -/
def waitMemory (i : Instr) (sc : Scope) (al : Nat) (base ea : Dword) (n : Nat) (timeout : Nat) (done : Dword → Bool) (s : State)
    (k : Dword → List (Dword × PWord) → State → Out) : Out :=
  match coreCause [(base, coreFault s.cur false false al base)] with
  | some c => trapAt i c s
  | none =>
    match s.xlatWords {} s.cur.c.priv (wordsAt ea n) with
    | (.error e, s) => trapAt i { cls := 3, kind := e.2, va := refusedAt ea e.1 } s
    | (.ok ws, s) =>
      let s := (s.ownStoresFirst ea n).dropSpan sc ws
      if s.readWaits ws then stallFrom i (s.askRead ws)
      else
      match s.checkAccess s.me sc (ws.map s.nameOf) false true with
      | none => trapAt i { cls := 5 } s
      | some s =>
        let poison := s.wordCause (s.badWord s.me ws)
        let ((v, bad), s) := s.readElem s.me ea n ws
        let s := (s.fillSpans s.me (ws.map s.nameOf)).noteSpans s.me (ws.map s.nameOf)
        if bad then trapAt i poison s
        else if done v || (timeout != 0 && s.now - s.waitStart ≥ timeout) then k v ws s
        else stallFrom i s

/-- The body of WAITA. -/
def waitaBody (f : FA) (s : State) : Out :=
  let t := tySt f.ty
  let ea := FA.ea f s
  let x := stArg t (s.cur.r.getS (lowS f.x))
  waitMemory (.waita f) f.sc (stBytes t) ea ea (stBytes t) (s.cur.r.getS (lowS f.y)).toNat
    (fun v => intCond f.aop.toNat (stArg t v) x) s
    (fun v ws s => retire ((s.acqAfter f.ord f.sc ws).mapRegs (fun r => r.setS (lowS f.d) (loadVal t v))))

/-- WAITA (R214). -/
def execWaita (f : FA) (s : State) : Out := issue (.waita f) f.g s (waitaBody f)

/-- The body of ARRW. -/
def arrwBody (f : FA) (s : State) : Out :=
  let ea := FA.ea f s
  match coreCause [(ea, scratchFault s.myGroup 8 8 ea)] with
  | some c => trapAt (.arrw f) c s
  | none =>
    let (v, bad) := s.myGroup.scratchNat ea.toNat 8
    let y := (s.cur.r.getS (lowS f.y)).toNat
    if bad then trapAt (.arrw f) (s.badCause (s.scratchSite ea)) s
    else if v ≥ (s.cur.r.getS (lowS f.x)).toNat ∨ (y ≠ 0 ∧ s.now - s.waitStart ≥ y) then
      retire ((s.acquireFor .sys 3).mapRegs (fun r => r.setS (lowS f.d) (BitVec.ofNat 64 v)))
    else stallFrom (.arrw f) s

/-- ARRW (R216). -/
def execArrw (f : FA) (s : State) : Out := issue (.arrw f) f.g s (arrwBody f)

/-- The body of TKWAIT. -/
def tkwaitBody (f : FA) (s : State) : Out :=
  let ea := FA.ea f s
  let x := s.cur.r.getS (lowS f.x)
  waitMemory (.tkwait f) .sys 16 ea (ea + 8) 8 (s.cur.r.getS (lowS f.y)).toNat (fun v => decide (0 ≤ (v - x).toInt)) s
    (fun v _ s => retire ((s.acquireFor .sys 3).mapRegs (fun r => r.setS (lowS f.d) v)))

/-- TKWAIT (R217). -/
def execTkwait (f : FA) (s : State) : Out := issue (.tkwait f) f.g s (tkwaitBody f)

/-- TKREQ (R217). -/
def execTkreq (f : FA) (s : State) : Out :=
  issue (.tkreq f) f.g s (fun s =>
    let ea := FA.ea f s
    scalarAtom (.tkreq f) .rlx .sys 16 ea ea 8 (fun old => some ((old + 1) % 2 ^ 64)) s
      (fun old s => retire (s.mapRegs (fun r => r.setS (lowS f.d) (BitVec.ofNat 64 old)))))

/-- TKSERVE (R217). -/
def execTkserve (f : FA) (s : State) : Out :=
  issue (.tkserve f) f.g s (fun s =>
    let ea := FA.ea f s
    let inc := if f.aop = 1 then (s.cur.r.getS (lowS f.x)).toNat else 1
    scalarAtom (.tkserve f) .rel .sys 16 ea (ea + 8) 8 (fun old => some ((old + inc) % 2 ^ 64)) s
      (fun old s => retire (s.mapRegs (fun r => r.setS (lowS f.d) (BitVec.ofNat 64 (old + inc))))))

/-! ### The events that look again -/

/-- `body` for a stream that waits and may look again, if it still waits there. -/
def State.recheck (s : State) (id : Nat) (ready : State → Waiting → Bool) (body : Instr → State → Out) : State :=
  s.onLive id (fun s =>
    match s.cur.c.wait with
    | none => s
    | some w =>
      if ready s w && !tskHalted s.cur.t.tskid && (s.group s.cur.pl.group).phase == .resident then
        match body w.i s with
        | .next t => t
        | _ => s
      else s)

/-- The copies in the issuer's L1 of a waited span are gone, or the interval has passed (R214, R215). -/
def State.lookAgain (s : State) (ea : Dword) (n : Nat) (w : Waiting) : Bool :=
  let l1 := chainNode s.me.core s.me.lvl
  let pool := (wordsAt ea n).any (fun va => match (s.xlat {} s.cur.c.priv va).1 with
    | .ok pw => pw.kind == 2
    | .error _ => false)
  let asid := (s.asidOf s.cur).toNat
  let held := (wordsAt ea n).all (fun va =>
    s.copies.any (fun c => c.node == l1 && c.key.asid == asid && c.key.va == va.toNat && c.st != .i))
  if pool then s.now ≥ w.seen + max (s.cur.y.ppoll.toNat % 2 ^ 32) 64
  else s.now ≥ w.seen + 4096 || (!held && s.now > w.seen)

/-- WAITA_RECHECK (R214). -/
def execWaitaRecheck (h : Nat) (s : State) : Out :=
  .next (s.recheck h (fun s w => match w.i with
      | .waita f => s.lookAgain (FA.ea f s) (stBytes (tySt f.ty)) w
      | _ => false)
    (fun i s => match i with
      | .waita f => waitaBody f s
      | _ => stall s))

/-- TKWAIT_RECHECK (R217). -/
def execTkwaitRecheck (h : Nat) (s : State) : Out :=
  .next (s.recheck h (fun s w => match w.i with
      | .tkwait f => s.lookAgain (FA.ea f s + 8) 8 w
      | _ => false)
    (fun i s => match i with
      | .tkwait f => tkwaitBody f s
      | _ => stall s))

/-- ARRW_WAKE (R216). -/
def execArrwWake (h : Nat) (s : State) : Out :=
  .next (s.recheck h (fun _ w => match w.i with
      | .arrw _ => true
      | _ => false)
    (fun i s => match i with
      | .arrw f => arrwBody f s
      | _ => stall s))

end Sys2Proof.Machine
end

