-- ==== Sys2Proof/Machine/Events.lean ====
section
/-!
DEFINITION. The event ring (R277 to R280): the arbiter's order, the marker step, and the entries written by RDMA.
-/

namespace Sys2Proof.Machine

/-! ### The ring -/

/-- The ring's LOGN, where it names a ring (R277). -/
def FrontEnd.ring (fe : FrontEnd) : Option Nat :=
  let n := getBits fe.evcfg 0 4
  if n ≥ 4 then some n else none
/-- Entries written and not consumed. -/
def FrontEnd.evUsed (fe : FrontEnd) : Nat := (fe.evprod.toNat + 2 ^ 32 - fe.evcons.toNat % 2 ^ 32) % 2 ^ 32
/-- PEND of EVOVF. -/
def FrontEnd.pend (fe : FrontEnd) : Bool := bit fe.evovf 63
/-- The ring has a free slot. -/
def FrontEnd.evRoom (fe : FrontEnd) : Bool :=
  match fe.ring with
  | some n => decide (fe.evUsed < 2 ^ n)
  | none => false

/-- The 32 bytes of an entry (R278). -/
def eventBytes (e : Event) (seq : Word) : List Byte :=
  leBytes 4 seq.toNat ++ leBytes 1 e.type ++ leBytes 1 e.queue ++ leBytes 2 e.node ++ leBytes 4 e.kseq.toNat
    ++ leBytes 4 e.code.toNat ++ leBytes 8 e.handle.toNat ++ leBytes 8 e.detail.toNat

/-- Bytes of an event written to the host's memory by RDMA, on the queue pair and with the key of EVKEY (R277). -/
def State.hostPut (s : State) (a : Nat) (bs : List Byte) : State :=
  { s with hostMem := memWrite s.hostMem a bs
           out := s.out ++ [.hostWrite (getBits s.fe.evkey 32 24) (s.fe.evkey.truncate 32) a bs] }

/-- An entry at slot PROD with the next SEQ. -/
def State.putEvent (s : State) (n : Nat) (e : Event) : State :=
  let fe := s.fe
  let s := { s with fe := { fe with nextSeq := fe.nextSeq + 1, evprod := BitVec.ofNat 64 ((fe.evprod.toNat + 1) % 2 ^ 32) } }
  s.hostPut (fe.evaddr.toNat + 32 * (fe.evprod.toNat % 2 ^ n)) (eventBytes e fe.nextSeq)

/-- The marker of a lost run. DESIGN CHOICE, log entry 86: it has no kick, and its KSEQ is 0. -/
def overflowEvent (run : Nat) (first : Nat) : Event :=
  { type := 7, queue := 0xFF, node := 0xFFFF, kseq := 0, code := BitVec.ofNat 32 run, handle := 0,
    detail := BitVec.ofNat 64 first }

/-- The marker step (R280). -/
def State.marker (s : State) : State :=
  match s.fe.ring with
  | none => s
  | some n =>
    if s.fe.pend && s.fe.evUsed < 2 ^ n then
      let t := s.putEvent n (overflowEvent s.fe.run (getBits s.fe.evovf 0 32))
      { t with fe := { t.fe with evovf := putBits t.fe.evovf 63 1 0 } }
    else s

/-- An event lost: it opens or extends a run (R280). -/
def State.loseEvent (s : State) : State :=
  let fe := s.fe
  let ovf := if fe.pend then fe.evovf else putBits (putBits fe.evovf 63 1 1) 0 32 fe.nextSeq.toNat
  let run := if fe.pend then fe.run + 1 else 1
  { s with fe := { fe with
      evovf := putBits ovf 32 31 (min (getBits ovf 32 31 + 1) (2 ^ 31 - 1)), run := run, nextSeq := fe.nextSeq + 1 } }

/-- One event takes its SEQ and is written or lost. -/
def State.takeEvent (s : State) (e : Event) : State :=
  match s.fe.ring with
  | none => s.loseEvent
  | some n => if s.fe.pend || s.fe.evUsed == 2 ^ n then s.loseEvent else s.putEvent n e

/-- The arbiter's key of an event: ascending QUEUE, then TYPE with COMPLETE last (R279). -/
def eventKey (e : Event) : Nat := e.queue * 16 + (if e.type = 0 then 8 else e.type)
/-- An event placed among ordered ones, behind those with its key. -/
def placeEvent (e : Event) : List Event → List Event
  | [] => [e]
  | x :: rest => if eventKey x ≤ eventKey e then x :: placeEvent e rest else e :: x :: rest
/-- Events in the arbiter's order. -/
def orderEvents (l : List Event) : List Event := l.foldl (fun acc e => placeEvent e acc) []

/-- A warp that waits for its event's acceptance goes on (R362). -/
def State.accepted (s : State) (r : Raised) : State :=
  match r.hart with
  | none => s
  | some id => s.updHart id (fun h => match h.c.wait with
    | some { i := .evpost _, .. } => { h with c := { h.c with wait := none } }
    | _ => h)

/-- The oldest clock of events that the arbiter has not taken. -/
def FrontEnd.oldestClock (fe : FrontEnd) : Nat :=
  match fe.raised with
  | [] => 0
  | r :: rest => rest.foldl (fun n x => min n x.at_) r.at_

/-- One clock of the arbiter (R280): the marker step, then the events of the oldest clock that is over. -/
def State.arbitrate (s : State) : State :=
  let t := s.fe.oldestClock
  let now := s.fe.raised.filter (fun r => r.at_ == t && r.at_ < s.clock)
  let rest := s.fe.raised.filter (fun r => !(r.at_ == t && r.at_ < s.clock))
  let s := s.marker
  let s := (orderEvents (now.map (fun r => r.e))).foldl State.takeEvent { s with fe := { s.fe with raised := rest } }
  now.foldl State.accepted s

/-- The arbiter's one turn in a clock (R280). -/
def State.arbiterTurn (s : State) : State :=
  if s.fe.turn > s.clock then s
  else
    let t := s.arbitrate
    { t with fe := { t.fe with turn := s.clock + 1 } }

/-- EVENT_ARBITRATION (R280): the arbiter's turn in the clock, unless it has had it. -/
def execEventArbitration (s : State) : Out := .next s.arbiterTurn

/-- OVERFLOW_MARKER (R280): the marker step as soon as a slot is free. The events of this clock come after it, with the arbiter's
turn. -/
def execOverflowMarker (s : State) : Out := .next s.marker

end Sys2Proof.Machine
end

