-- ==== Sys2Proof/Machine/Order.lean ====
section
/-!
DEFINITION. Class 0x8: fences, range operations and waits (R219 to R226), and the refresh windows of a die (R178, R291).
-/

namespace Sys2Proof.Machine

/-! ### Fences and counters -/

/-- FENCE (R219): with both masks zero it does nothing; in a Bowler stream cr and cw select nothing. -/
def execFence (f : FX) (s : State) : Out :=
  issue (.fence f) f.g s (fun s =>
    if f.imm.toNat % 4096 = 0 then retire s
    else match s.release (FX.scope f) (f.imm.toNat % 64) with
    | (false, s) => stall s
    | (true, s) => retire (s.acquireFor (FX.scope f) (f.imm.toNat / 64 % 64)))

/-- The outstanding operations of a counter (R189); every counter of a Bowler stream reads zero (R220). -/
def counterOf (h : Hart) (c : Nat) : Nat :=
  match h.role with
  | .bowler => 0
  | .warp => if c = 0 then h.m.cp.length else if c = 1 then h.m.mx.length else if c = 2 then h.m.ga.length else h.m.fb.length

/-- The body of WAITC. -/
def waitcBody (f : FX) (s : State) : Out :=
  if counterOf s.cur (f.imm.toNat % 4) ≤ f.imm.toNat / 4 % 64 then retire s else stallFrom (.waitc f) s

/-- WAITC (R220). -/
def execWaitc (f : FX) (s : State) : Out := issue (.waitc f) f.g s (waitcBody f)

/-- The body of DRAINST. -/
def drainstBody (f : FX) (s : State) : Out :=
  let s := s.drain
  if storesEnded s.cur then retire s else stallFrom (.drainst f) s

/-- DRAINST (R221). -/
def execDrainst (f : FX) (s : State) : Out := issue (.drainst f) f.g s (drainstBody f)

/-! ### Range operations (R222, R223) -/

/-- The range of a range operation: its start and its length in bytes. -/
def FM.range (f : FM) (s : State) : Nat × Nat := ((FM.ea f s).toNat, (s.cur.r.getS (lowS f.d)).toNat % 2 ^ 32)

/-- CWB and CWBI retire as stores do (R200). -/
def startRange (i : Instr) (f : FM) (s : State) : Out :=
  issue i f.g s (fun s =>
    let r := FM.range f s
    if r.2 = 0 then retire s
    else if !s.requestRoom 1 then stall s
    else retire (s.queueStore { s.newStore i f.sc [] with range := some r }))

/-- CWB (R222). -/
def execCwb (f : FM) (s : State) : Out := startRange (.cwb f) f s
/-- CWBI (R222). -/
def execCwbi (f : FM) (s : State) : Out := startRange (.cwbi f) f s

/-- CINV (R222): it is complete before the next instruction issues. The warp's own older stores are performed first. -/
def execCinv (f : FM) (s : State) : Out :=
  issue (.cinv f) f.g s (fun s =>
    retire (s.drain.rangeMap (fun s x => s.cinvWord f.sc x) (rangeWords (FM.range f s))))

/-- A word fetched ahead by `i`. Pool words, the weight store and devices are left alone: PREF changes no result. -/
def State.prefWord (s : State) (i : Issuer) (x : Dword × PWord) : State :=
  if x.2.kind ≤ 1 && !s.gone x.2 && !s.stopped i none (s.nameOf x) false false then (s.rd i (s.nameOf x)).2.2 else s
/-- A word owned ahead: ownership without a write. Pool words, the weight store and devices are left alone, and a word for which the
OWN would have to wait. -/
def State.prefOwn (s : State) (i : Issuer) (sc : Scope) (x : Dword × PWord) : State :=
  let k := s.nameOf x
  let top := s.levelOf i sc x.2
  if x.2.kind > 1 || s.gone x.2 || s.stopped i (some top) k false false then s else s.ownOnly i (s.stopLevel i top k) k

/-- PREF (R223). -/
def execPref (f : FM) (s : State) : Out :=
  issue (.pref f) f.g s (fun s =>
    let lvl := f.sub.toNat % 4
    let i := if lvl = 0 then s.me else clusterIssuer s.me.core
    let one := fun (s : State) (x : Dword × PWord) =>
      if f.sub.toNat ≥ 4 then
        (match s.xlat { write := true } s.cur.c.priv x.1 with
        | (.error _, s) => s
        | (.ok pw, s) => s.prefOwn i f.sc (x.1, pw))
      else if lvl = 2 then s else s.prefWord i x
    retire (s.rangeMap one (rangeWords (FM.range f s))))

/-! ### WRSYNC and the refresh windows (R178, R224, R291) -/

/-- PHASE of the executing stream's die. -/
def phaseOf (s : State) : Dword := BitVec.ofNat 64 (getBits (wrefOf s (dieOf s.cur.pl.core)) 40 16)

/-- WRSYNC (R224): the event REFRESH_WINDOW_END ends the wait. -/
def execWrsync (f : FX) (s : State) : Out :=
  issue (.wrsync f) f.g s (fun s => stallFrom (.wrsync f) s)

/-- A warp that waits at WRSYNC for the window of bank `b` of die `d`. -/
def waitsFor (d b : Nat) (h : Hart) : Bool :=
  h.role == .warp && h.live && dieOf h.pl.core == d && !tskHalted h.t.tskid
    && (match h.c.wait with
      | some { i := .wrsync f, .. } => f.sub == 0 || (h.r.getS f.sa.toNat).toNat % 16 == b
      | _ => false)

/-- The executing warp's WRSYNC ends. -/
def State.endWrsync (s : State) : State :=
  match s.cur.c.wait with
  | some { i := .wrsync f, .. } =>
    match writeS f.sd (phaseOf s) s with
    | .next t => t
    | _ => s
  | _ => s

/-- REFRESH_WINDOW_START (R291): a due window starts when nobody holds it, or at the maximum hold. -/
def execRefreshWindowStart (die : Nat) (s : State) : Out :=
  let d := s.die die
  let last := s.clock ≥ d.nominal + (d.period - d.window)
  .next (if d.openUntil.isSome || s.clock < d.nominal || (s.dieHold die && !last) then s
    else
      let forced := last && s.dieHold die
      s.setDie die { d with
        openUntil := some (s.clock + d.window)
        nominal := d.nominal + max d.period 1
        bank := if d.order = 1 then (d.bank + 15) % 16 else (d.bank + 1) % 16
        deferClocks := BitVec.ofNat 16 (s.clock - d.nominal)
        forced := if forced then d.forced + 1 else d.forced })

/-- REFRESH_WINDOW_END (R178, R224): the window of a die ends, and the WRSYNCs that wait for it. -/
def execRefreshWindowEnd (die : Nat) (s : State) : Out :=
  let d := s.die die
  .next (match d.openUntil with
    | none => s
    | some t =>
      if s.clock < t then s
      else
        let b := d.openBank
        let s := s.setDie die { d with openUntil := none }
        (s.allHarts.filter (waitsFor die b)).foldl (fun s h => s.onHart h.id State.endWrsync) s)

/-! ### WAITB (R225) -/

/-- The body of WAITB. -/
def waitbBody (f : FX) (s : State) : Out :=
  let ea := s.cur.r.getS f.sa.toNat + f.imm.signExtend 64
  let mask := s.cur.r.getS f.sb.toNat
  let mem := f.sub.toNat % 2 = 1
  let any := f.sub.toNat / 2 % 2 = 1
  let fin := fun (v : Dword) (s : State) =>
    if mask = 0 ∨ (if any then v &&& mask ≠ 0 else v &&& mask = mask) then
      retire ((s.acquireFor (if mem then .clus else .core) 3).mapRegs (fun r => r.setS f.sd.toNat v))
    else stallFrom (.waitb f) s
  if mem then
    match coreCause [(ea, coreFault s.cur false false 8 ea)] with
    | some c => trapAt (.waitb f) c s
    | none =>
      match s.xlatWords {} s.cur.c.priv (wordsAt ea 8) with
      | (.error e, s) => trapAt (.waitb f) { cls := 3, kind := e.2, va := e.1 } s
      | (.ok ws, s) =>
        let s := s.ownStoresFirst ea 8
        if s.readWaits ws then stallFrom (.waitb f) (s.askRead ws)
        else
        let poison := s.wordCause (s.badWord s.me ws)
        let ((v, bad), s) := s.readElem s.me ea 8 ws
        let s := (s.fillSpans s.me (ws.map s.nameOf)).noteSpans s.me (ws.map s.nameOf)
        if bad then trapAt (.waitb f) poison s else fin v s
  else
    match coreCause [(ea, scratchFault s.myGroup 8 8 ea)] with
    | some c => trapAt (.waitb f) c s
    | none =>
      let (v, bad) := s.myGroup.scratchNat ea.toNat 8
      if bad then trapAt (.waitb f) (s.badCause (s.scratchSite ea)) s else fin (BitVec.ofNat 64 v) s

/-- WAITB (R225). -/
def execWaitb (f : FX) (s : State) : Out := issue (.waitb f) f.g s (waitbBody f)

end Sys2Proof.Machine
end

