-- ==== Sys2Proof/Machine/Endpoint.lean ====
section
/-!
DEFINITION. Endpoints: their handles, the checks of a packet, and what a packet does at its target (R245 to R247).
-/

namespace Sys2Proof.Machine

/-! ### Handles and windows (R245) -/

def handleKey (h : Dword) : Nat := getBits h 48 16
def handlePkg (h : Dword) : Nat := getBits h 44 4
def handleCore (h : Dword) : Nat := getBits h 35 9
def handleSlot (h : Dword) : Nat := getBits h 30 5
def handleNum (h : Dword) : Nat := getBits h 28 2

/-- The endpoint registers that a handle names in a workgroup. -/
def Group.win (g : Group) (n : Nat) : Dword := vget g.epw n 0
def Group.ctl (g : Group) (n : Nat) : Dword := vget g.epc n 0
def winMem (w : Dword) : Bool := bit w 63
def winBase (w : Dword) : Nat := getBits w 8 49 * 256
/-- The size of the window; none when the endpoint is unbound. -/
def ctlSize (c : Dword) : Option Nat := if 8 ≤ getBits c 42 6 ∧ getBits c 42 6 ≤ 47 then some (2 ^ getBits c 42 6) else none
def ctlWr (c : Dword) : Bool := bit c 41
def ctlRd (c : Dword) : Bool := bit c 40
def ctlAuto (c : Dword) : Bool := bit c 39
def ctlCnt (c : Dword) : Nat := getBits c 3 15 * 8

/-- An endpoint of a workgroup is bound, so that it comes back to its core and slot (R245). -/
def Group.bound (g : Group) : Bool := (List.range 4).any (fun n => (ctlSize (g.ctl n)).isSome)
/-- The workgroup that holds a core and a wave slot: the one resident there, or one that will come back there. -/
def State.holderOf (s : State) (core slot : Nat) : Option Nat :=
  let gs := s.groups.filter (fun p => p.2.core == core && p.2.slot == slot && p.2.phase != .ended)
  ((gs.find? (fun p => p.2.phase == .resident)).or (gs.find? (fun p => p.2.bound))).map (fun p => p.1)

/-- A packet of `len` bytes at `off` is refused with reason 19 (R245). -/
def packetRefused (g : Group) (handle : Dword) (write : Bool) (off len : Nat) : Bool :=
  let n := handleNum handle
  let c := g.ctl n
  match ctlSize c with
  | none => true
  | some size =>
    getBits c 48 16 != handleKey handle || (if write then !ctlWr c else !ctlRd c) || decide (off + len > size)
      || (ctlAuto c && (!winMem (g.win n) || decide (off < 16))) || decide (ctlCnt c + 8 > g.scratchSize)

/-- What a packet meets at its target. -/
inductive Arrival where
  /-- Refused with a reason and a fault kind. -/
  | refused (reason kind : Nat) (va : Nat)
  /-- Held while the workgroup is not resident. -/
  | held
  /-- One of its words has to wait at its home, as a write or a read; the packet has done nothing. -/
  | waits (own : Bool) (pw : PWord)
  | done
  deriving DecidableEq, Repr

/-! ### The target's accesses -/

/-- An address in a memory window. -/
def winVa (a : Nat) : Dword := (BitVec.ofNat 57 a).signExtend 64

/-- A word of a memory window translated in the target's address space, at user privilege. A departed package's memory takes no
store (R348). -/
def State.winXlat (s : State) (g : Group) (write : Bool) (va : Dword) : Except Nat PWord × State :=
  if !canonical va then (.error kNONCANON, s)
  else match s.translate (stackOf g.core) g.asid false { write := write } va with
    | (.ok pw, s) => (if s.reclaimed pw then .error kRECLAIMED else if write && s.gone pw then .error kNOTMAPPED else .ok pw, s)
    | r => r

/-- An endpoint's access at a home waits as every other does: for its row (R345), an entry that names a failed die (R351), a rebuild
(R342), its request to a peer (R244), and a write for the line's sharers (R191) and its turn (R192). -/
def State.sysWaits (s : State) (rank : Nat) (write : Bool) (pw : PWord) : Bool :=
  decide (pw.kind ≤ 1) && (s.rowWaits pw || s.deadHolds pw || s.poisonWaits pw || s.unasked pw
    || (write && (!(s.sharersOf pw).isEmpty || s.homeLate rank pw)))

/-- A write at system scope at the home slice (R188): every copy is recalled first. -/
def State.sysWrite (s : State) (pw : PWord) (f : Word → Word) (whole bad : Bool) : State :=
  if pw.kind = 2 then s.poolPut pw (f (memWord s.mem (pwKey pw))) bad
  else if pw.kind = 3 then s.homePut pw (f (memWord s.mem (pwKey pw))) bad
  else
    let s := ((s.heard pw).recall pw).homeWrite pw f whole
    if bad then { s with memBad := addNat s.memBad (pwKey pw) } else s
/-- A write at system scope in the home arbiter's order (R192). -/
def State.sysWriteAt (s : State) (rank : Nat) (pw : PWord) (f : Word → Word) (whole bad : Bool) : State :=
  let s := s.sysWrite pw f whole bad
  if pw.kind = 0 then s.homeServes rank pw else s
/-- A read at system scope. -/
def State.sysRead (s : State) (pw : PWord) : Word × Bool :=
  if s.gone pw then (memWord s.mem (pwKey pw), true)
  else if pw.kind = 2 then (memWord s.mem (pwKey pw), s.memBad.contains (pwKey pw))
  else if pw.kind ≥ 3 then s.weightWord pw
  else s.homeWord pw

/-- The words of a packet in window order: each with its bytes and whether it is poisoned. -/
def packetWords (data : List Byte) (bads : List Nat) : List (Nat × List Byte × Bool) :=
  (List.range ((data.length + 3) / 4)).map (fun j => (4 * j, (data.drop (4 * j)).take 4, bads.contains (4 * j)))

/-- Words written into a memory window: the first fault, or the first word that waits, ends it. -/
def State.writeWindow (s : State) (rank : Nat) (g : Group) (base off : Nat) : List (Nat × List Byte × Bool) → Option Arrival × State
  | [] => (none, s)
  | (o, bs, bad) :: rest =>
    let va := winVa (base + off + o)
    match s.winXlat g true va with
    | (.error k, s) => (some (.refused 18 k va.toNat), s)
    | (.ok pw, s) =>
      if s.sysWaits rank true pw then (some (.waits true pw), s)
      else (s.sysWriteAt rank pw (fun w => setBytes w 0 bs) (bs.length ≥ 4) bad).writeWindow rank g base off rest

/-- Words written into a scratchpad window. -/
def Group.writeScratch (g : Group) (base off : Nat) (l : List (Nat × List Byte × Bool)) : Group :=
  l.foldl (fun g x =>
    let a := base + off + x.1
    let g := g.scratchPut a x.2.1
    if x.2.2 then { g with scratchBad := addNat g.scratchBad (a / 4 * 4) } else g) g

/-- The bytes of a packet are counted in the arrival counter (R247). -/
def Group.countArrival (g : Group) (cnt n : Nat) : Group :=
  g.scratchPut cnt (leBytes 8 ((memNat g.scratch cnt 8 + n) % 2 ^ 64))

/-- SERVING of the ticket block at the window's start rises by one (R217, R247), or has to wait at its home. An uncorrectable word is
left and logged (R212). -/
def State.serveNext (s : State) (rank : Nat) (g : Group) (p : Packet) : Option Arrival × State :=
  match s.winXlat g true (winVa (winBase (g.win (handleNum p.handle)) + 8)) with
  | (.error _, s) => (none, s)
  | (.ok pw, s) =>
    let hi : PWord := { pw with off := pw.off + 4 }
    match [pw, hi].find? (s.sysWaits rank true) with
    | some w => (some (.waits true w), s)
    | none =>
      match [pw, hi].find? (fun w => (s.sysRead w).2) with
      | some w => (none, s.logError { sites := [.word w], addr := w.off, source := 0, action := 0, unit := homeUnit w.off,
                                      req := BitVec.ofNat 64 (p.src % 16 * 2 ^ 16) })
      | none =>
        let new := (leNat (leBytes 4 (s.sysRead pw).1.toNat ++ leBytes 4 (s.sysRead hi).1.toNat) + 1) % 2 ^ 64
        (none, (s.sysWriteAt rank pw (fun _ => BitVec.ofNat 32 new) true false).sysWriteAt rank hi
          (fun _ => BitVec.ofNat 32 (new / 2 ^ 32)) true false)

/-- A packet of a ticketed transfer is counted: whether it was the last of them, in whatever order they came (R247). -/
def State.countPacket (s : State) (p : Packet) : Bool × State :=
  let n := ((s.arrivals.find? (fun a => a.1 == p.src && a.2.1 == p.id)).map (fun a => a.2.2)).getD 0
  let rest := s.arrivals.filter (fun a => !(a.1 == p.src && a.2.1 == p.id))
  if !p.tkt then (false, s)
  else if n + 1 ≥ p.count then (true, { s with arrivals := rest })
  else (false, { s with arrivals := (p.src, p.id, n + 1) :: rest })

/-- The home arbiter's rank of a packet's writes (R192): this package's own take the first core of the sending cluster, another's the
Ranman port by which they come. -/
def State.packetRank (s : State) (p : Packet) : Nat :=
  if p.src = s.pkg.toNat then 4 * ((s.cmds.find? (fun c => c.id == p.id)).map (fun c => c.cluster)).getD 0 else fabricRank p.port

/-- A packet whose bytes are performed is counted, and the last of a ticketed transfer advances SERVING (R247). An arrival counter that
is uncorrectable stays so, and the transfer fails as one that meets a poisoned word does (R340, log entry 83). -/
def State.packetDone (s : State) (gid : Nat) (p : Packet) : Arrival × State :=
  let g := s.group gid
  let c := g.ctl (handleNum p.handle)
  if (g.scratchNat (ctlCnt c) 8).2 then (.refused 18 0 (ctlCnt c), s)
  else
    let (last, s) := (s.setGroup gid (g.countArrival (ctlCnt c) p.data.length)).countPacket p
    if last && ctlAuto c && winMem (g.win (handleNum p.handle)) then
      match s.serveNext (s.packetRank p) g p with
      | (some a, s) => (a, s)
      | (none, s) => (.done, s)
    else (.done, s)

/-- A packet at its target: refused, held, waiting at a home, or performed and counted (R245 to R247). DESIGN CHOICE, log entry 84:
bytes of a scratchpad window beyond the workgroup's grant are refused with reason 18 and kind SCRATCH. -/
def State.deliver (s : State) (p : Packet) : Arrival × State :=
  match s.holderOf (handleCore p.handle) (handleSlot p.handle) with
  | none => (.refused 19 0 0, s)
  | some gid =>
    let g := s.group gid
    if g.phase != .resident then (.held, s)
    else if packetRefused g p.handle true p.off p.data.length then (.refused 19 0 0, s)
    else
      let n := handleNum p.handle
      let base := winBase (g.win n)
      let ws := packetWords p.data p.bads
      let (a, t) :=
        if winMem (g.win n) then
          match s.writeWindow (s.packetRank p) g base p.off ws with
          | (some a, t) => (a, t)
          | (none, t) => t.packetDone gid p
        else if base + p.off + p.data.length > g.scratchSize then (.refused 18 kSCRATCH (base + p.off), s)
        else (s.setGroup gid (g.writeScratch base p.off ws)).packetDone gid p
      match a with
      | .waits _ _ => (a, s)
      | _ => (a, t)

/-- Words read from a memory window at system scope. -/
def State.readWindow (s : State) (g : Group) (base off : Nat) : List Nat → Except Arrival (List (Word × Bool)) × State
  | [] => (.ok [], s)
  | o :: rest =>
    let va := winVa (base + off + o)
    match s.winXlat g false va with
    | (.error k, s) => (.error (.refused 18 k va.toNat), s)
    | (.ok pw, s) =>
      if s.sysWaits 0 false pw then (.error (.waits false pw), s)
      else
        let w := s.sysRead pw
        match (s.heard pw).readWindow g base off rest with
        | (.error e, s) => (.error e, s)
        | (.ok ws, s) => (.ok (w :: ws), s)

/-- A read of a window by XGET: its words, or the refusal. -/
def State.fetchWindow (s : State) (handle : Dword) (off len : Nat) : Except Arrival (List (Word × Bool)) × State :=
  match s.holderOf (handleCore handle) (handleSlot handle) with
  | none => (.error (.refused 19 0 0), s)
  | some gid =>
    let g := s.group gid
    let n := handleNum handle
    let base := winBase (g.win n)
    let offs := (List.range ((len + 3) / 4)).map (fun j => 4 * j)
    if g.phase != .resident then (.error .held, s)
    else if packetRefused g handle false off len then (.error (.refused 19 0 0), s)
    else if winMem (g.win n) then s.readWindow g base off offs
    else if base + off + len > g.scratchSize then (.error (.refused 18 kSCRATCH (base + off)), s)
    else (.ok (offs.map (fun o =>
      (BitVec.ofNat 32 (memNat g.scratch (base + off + o) 4), g.scratchBad.contains ((base + off + o) / 4 * 4)))), s)

/-- The packets of a transfer, cut at the 256-byte boundaries of the window offset (R246): offset and length. -/
def cutPackets : Nat → Nat → Nat → List (Nat × Nat)
  | 0, _, _ => []
  | fuel + 1, off, len =>
    if len = 0 then []
    else
      let n := min len (256 - off % 256)
      (off, n) :: cutPackets fuel (off + n) (len - n)

def packetsOf (off len : Nat) : List (Nat × Nat) := cutPackets (len / 256 + 2) off len

end Sys2Proof.Machine
end

