-- ==== Sys2Proof/Machine/Command.lean ====
section
/-!
DEFINITION. Class 0x9: commands (R228 to R241, R246, R252), the command ring with the scratchpad accesses that publish it,
and the events that move commands on.
-/

namespace Sys2Proof.Machine

/-! ### Accesses of a command (R233) -/

/-- The core that stands for a command's cluster. -/
def Cmd.core (c : Cmd) : Nat := 4 * c.cluster
/-- The issuer of a command's accesses. -/
def Cmd.issuer (c : Cmd) : Issuer := clusterIssuer c.core

/-- A translation by a command. -/
def State.cmdXlat (s : State) (c : Cmd) (acc : Acc) (va : Dword) : Except Nat PWord × State :=
  if !canonical va then (.error kNONCANON, s) else s.translate (stackOf c.core) c.asid c.priv acc va

/-- The outcome of one access of a command: a value, or how the command fails. -/
abbrev CmdRes (α : Type) := Except CmdFail α × State

/-- An access that waits, and its command with it: it asks for `pw` at its home (R191, R244, R342). Reason 0 marks it. -/
def waitFail (write : Bool) (pw : PWord) : CmdFail := { reason := 0, kind := pw.kind, va := bnat write + 2 * pw.peer, off := pw.off }
/-- What a command that waits asks for. -/
def State.cmdAsk (s : State) (c : Cmd) (f : CmdFail) : State :=
  if f.kind ≤ 1 then s.askWord (some c.core) (f.va % 2 == 1) { kind := f.kind, peer := f.va / 2, off := f.off } (.cmd c.id) else s

/-- A word that a command reads at its home at system scope waits there (R342, R351). -/
def State.homeHolds (s : State) (c : Cmd) (pw : PWord) : Bool :=
  decide (4 ≤ c.fn) && pw.kind == 0 && (s.poisonWaits pw || s.deadHolds pw)

/-- The words of a command's access at these addresses, where they translate. -/
def State.cmdKeys (s : State) (c : Cmd) (acc : Acc) (vas : List Dword) : List WKey :=
  vas.filterMap (fun va => match (s.cmdXlat c acc va).1 with
    | .ok pw => some (wordName c.asid va pw)
    | .error _ => none)
/-- The spans of a command's accesses are used at the nodes of its cluster's chain (R179). -/
def State.cmdSpans (s : State) (c : Cmd) (acc : Acc) (vas : List Dword) : State := s.noteSpans c.issuer (s.cmdKeys c acc vas)

/-- A word of a command's access: translated, at a package that answers (R232, R348), at a port that decodes it (R249), or in
the cluster's L2 (R250). It may wait (R178, R342, R345, R351). -/
def State.cmdWord (s : State) (c : Cmd) (acc : Acc) (va : Dword) (off : Nat) : CmdRes PWord :=
  match s.cmdXlat c acc va with
  | (.error k, s) => (.error { reason := 18, kind := k, va := va.toNat, off := off }, s)
  | (.ok pw, s) =>
    let own := if acc.write then some (s.levelOf c.issuer c.scope pw) else none
    let k := wordName c.asid va pw
    if s.waits c.issuer own k || s.homeHolds c pw || s.refreshHolds c.core pw then (.error (waitFail acc.write pw), s)
    else if s.gone pw then (.error { reason := 20, kind := 0, va := va.toNat, off := off }, s)
    else if s.reclaimed pw && (acc.write || c.fn ≥ 4 || (s.poolCopy c.issuer k).isNone) then
      (.error { reason := 18, kind := kRECLAIMED, va := va.toNat, off := off }, s)
    else (.ok pw, s)

/-- A word read by a command at its scope. An uncorrectable word fails it with kind 0 (R340). -/
def State.cmdRead (s : State) (c : Cmd) (va : Dword) (off : Nat) : CmdRes Word :=
  match s.cmdWord c {} va off with
  | (.error e, s) => (.error e, s)
  | (.ok pw, s) =>
    let k := wordName c.asid va pw
    let ((x, bad), s) :=
      if pw.kind = 2 then s.poolRd c.issuer k
      else if pw.kind = 3 then (s.weightWord pw, s)
      else
        let (w, _, s) := s.rd c.issuer k
        (w, s)
    if bad then (.error { reason := 18, kind := 0, va := va.toNat, off := off }, s) else (.ok x, s)

/-- Bytes of a word written by a command at its scope, through the cluster's L2. -/
def State.cmdWrite (s : State) (c : Cmd) (va : Dword) (o : Nat) (bs : List Byte) (off : Nat) : CmdRes Unit :=
  match s.cmdWord c { write := true } va off with
  | (.error e, s) => (.error e, s)
  | (.ok pw, s) =>
    let k := wordName c.asid va pw
    let f := fun w => setBytes w o bs
    let whole := bs.length ≥ 4
    (.ok (), if pw.kind = 2 then s.poolWr c.issuer k f whole
      else if pw.kind = 3 then s.homePut pw (f (memWord s.mem (pwKey pw))) false
      else (s.own c.issuer (s.levelOf c.issuer c.scope pw) k f whole).2)

/-- A scratchpad word read by a command. -/
def State.cmdScratch (s : State) (c : Cmd) (a off : Nat) : CmdRes Word :=
  let (x, bad) := (s.group c.group).scratchNat a 4
  if bad then (.error { reason := 18, kind := 0, va := a, off := off }, s) else (.ok (BitVec.ofNat 32 x), s)

/-- Bytes written to the scratchpad of a command's workgroup. -/
def State.cmdScratchPut (s : State) (c : Cmd) (a : Nat) (bs : List Byte) : State :=
  s.setGroup c.group ((s.group c.group).scratchPut a bs)

/-- `n` bytes of memory read by a command from an address on. -/
def State.cmdBytesFrom (s : State) (c : Cmd) (base : Dword) : List Dword → CmdRes (List Byte)
  | [] => (.ok [], s)
  | va :: rest =>
    match s.cmdRead c va (va - base).toNat with
    | (.error e, s) => (.error e, s)
    | (.ok x, s) =>
      match s.cmdBytesFrom c base rest with
      | (.error e, s) => (.error e, s)
      | (.ok l, s) => (.ok (leBytes 4 x.toNat ++ l), s)

/-- `n` bytes at `a`; offsets of failures count from `base`. -/
def State.cmdBytes (s : State) (c : Cmd) (base a : Dword) (n : Nat) : CmdRes (List Byte) :=
  match s.cmdBytesFrom c base (wordsAt a n) with
  | (.error e, s) => (.error e, s)
  | (.ok l, s) => (.ok ((l.drop (a.toNat % 4)).take n), s.cmdSpans c {} (wordsAt a n))

/-! ### CPY and CPY2D (R235, R236) -/

def Cmd.dsp (c : Cmd) : Bool := c.aop % 2 == 1
def Cmd.ssp (c : Cmd) : Bool := c.aop / 2 % 2 == 1
/-- The bitmap form of CPY and CPY2D. -/
def Cmd.hasBm (c : Cmd) : Bool := c.fn ≤ 1 && c.aop / 4 % 2 == 1
def Cmd.nt (c : Cmd) : Bool := c.fn != 4 && c.fn != 5 && c.aop / 8 % 2 == 1

/-- Rows, row bytes, source stride and destination stride. CPY is one row. -/
def Cmd.rows (c : Cmd) : Nat := if c.fn = 0 then 1 else getBits c.y 16 16
def Cmd.rowBytes (c : Cmd) : Nat := if c.fn = 0 then getBits c.y 0 32 else getBits c.y 0 16
def Cmd.srcStride (c : Cmd) : Nat := if c.fn = 0 then 0 else 16 * getBits c.y 32 16
def Cmd.dstStride (c : Cmd) : Nat := if c.fn = 0 then 0 else 16 * getBits c.y 48 16
/-- The bytes that a copy writes. -/
def Cmd.total (c : Cmd) : Nat := c.rows * c.rowBytes
/-- The bytes from the first to the last of an operand with a stride. -/
def Cmd.reach (c : Cmd) (stride : Nat) : Nat := if c.total = 0 then 0 else (c.rows - 1) * stride + c.rowBytes
/-- Byte `b` of a copy in an operand with a stride. -/
def Cmd.place (c : Cmd) (stride b : Nat) : Nat := b / max c.rowBytes 1 * stride + b % max c.rowBytes 1

/-- Word `j` of a copy moved. -/
def State.copyWord (s : State) (c : Cmd) (j : Nat) : CmdRes Unit :=
  let so := c.place c.srcStride (4 * j)
  let d := c.place c.dstStride (4 * j)
  let src := c.x + BitVec.ofNat 64 so
  let dst := c.a + BitVec.ofNat 64 d
  match (if c.ssp then s.cmdScratch c src.toNat so else s.cmdRead c src so) with
  | (.error e, s) => (.error e, s)
  | (.ok x, s) =>
    if c.dsp then (.ok (), s.cmdScratchPut c dst.toNat (leBytes 4 x.toNat))
    else s.cmdWrite c dst 0 (leBytes 4 x.toNat) d

/-- `n` words from word `j` on moved in ascending order; the first failure ends it. -/
def State.copyWords (s : State) (c : Cmd) : Nat → Nat → CmdRes Unit
  | 0, _ => (.ok (), s)
  | n + 1, j =>
    match s.copyWord c j with
    | (.error e, s) => (.error e, s)
    | (.ok _, s) => s.copyWords c n (j + 1)

/-- The scratchpad word that holds the bit of chunk `k` (R236). -/
def Cmd.bitWord (c : Cmd) (k : Nat) : Nat := c.bm + 4 * (k / 32)
/-- The bit of chunk `k` ORed into the bitmap (R236). -/
def State.setChunk (s : State) (c : Cmd) (k : Nat) : State :=
  let g := s.group c.group
  s.setGroup c.group (g.scratchPut (c.bitWord k) (leBytes 4 (Nat.lor (memNat g.scratch (c.bitWord k) 4) (2 ^ (k % 32)))))
/-- The failure of a command that cannot OR a bit into an uncorrectable word of its bitmap (R340, log entry 83). -/
def State.bitFail (s : State) (c : Cmd) (ks : List Nat) : Option CmdFail :=
  (ks.find? (fun k => c.hasBm && !c.bits.contains k && ((s.group c.group).scratchNat (c.bitWord k) 4).2)).map (fun k =>
    { reason := 18, kind := 0, va := c.bitWord k, off := 4 * (k / 32) })

/-- The command numbered `id`. -/
def State.cmd? (s : State) (id : Nat) : Option Cmd := s.cmds.find? (fun c => c.id == id)
def State.setCmd (s : State) (c : Cmd) : State := { s with cmds := s.cmds.map (fun x => if x.id = c.id then c else x) }

/-- The 32-byte sector of the destination that word `j` of a copy falls in (R190). -/
def Cmd.sector (c : Cmd) (j : Nat) : Nat := (c.a.toNat + c.place c.dstStride (4 * j)) / 32
/-- The first word from word `j` on that begins a sector, or the end: a copy stops nowhere else. -/
def Cmd.cut (c : Cmd) (j : Nat) : Nat :=
  let n := c.total / 4
  if j = 0 ∨ j ≥ n then min j n
  else (((List.range 8).map (fun k => j + k)).find? (fun k => k ≥ n || c.sector k != c.sector (k - 1))).getD n

/-- The deltas that a command's writes form from here on are its own, where it is survivable (R194). -/
def State.cmdAcks (s : State) (c : Cmd) (before : Nat) : Cmd :=
  if c.scope == .surv then { c with acks := c.acks ++ (s.parity.sent.drop before).map (fun d => d.id) } else c

/-- A copy moved on to word `j` at least, whole sectors at a time, in ascending order (R190). -/
def State.moveTo (s : State) (c : Cmd) (j : Nat) : CmdRes Cmd :=
  let j := max c.moved (c.cut j)
  let before := s.parity.sent.length
  match s.copyWords c (j - c.moved) c.moved with
  | (.error e, s) => (.error e, s)
  | (.ok _, s) =>
    let at_ := fun (base : Dword) (stride : Nat) =>
      (List.range (j - c.moved)).map (fun t => base + BitVec.ofNat 64 (c.place stride (4 * (c.moved + t))))
    let s := if c.ssp then s else s.cmdSpans c {} (at_ c.x c.srcStride)
    let s := if c.dsp then s else s.cmdSpans c { write := true } (at_ c.a c.dstStride)
    let c := s.cmdAcks { c with moved := j } before
    (.ok c, s.setCmd c)

/-- The chunks of a copy (R236). -/
def Cmd.chunks (c : Cmd) : Nat := (c.total + 511) / 512
/-- The bit of chunk `k`, which is wholly written and performed, set. -/
def State.markChunk (s : State) (c : Cmd) (k : Nat) : Cmd × State :=
  if c.bits.contains k then (c, s)
  else
    let c' := { c with bits := k :: c.bits }
    (c', (s.setChunk c k).setCmd c')
/-- Every bit of a copy set. -/
def State.markAll (s : State) (c : Cmd) : State :=
  if c.hasBm then ((List.range c.chunks).foldl (fun (x : Cmd × State) k => x.2.markChunk x.1 k) (c, s)).2 else s

/-! ### CPYSP and CSRWK (R237, R238) -/

/-- The element size of a type (R87). -/
def elemBytes (ty : Nat) : Nat := 4 / WellFormed.perLane ty

def Cmd.spCols (c : Cmd) : Nat := getBits c.y 0 16
def Cmd.spRows (c : Cmd) : Nat := getBits c.y 16 16
def Cmd.spStride (c : Cmd) : Nat := getBits c.y 32 16

/-- The values of a row placed by its bitmap: the row's bytes and how many values were taken. -/
def expandRow (e : Nat) (bits : List Byte) (vals : List Byte) : Nat → Nat → List Byte
  | 0, _ => []
  | n + 1, j =>
    if ((bits[j / 8]?).getD 0).getLsbD (j % 8) then vals.take e ++ expandRow e bits (vals.drop e) n (j + 1)
    else List.replicate e 0 ++ expandRow e bits vals n (j + 1)

/-- The present values of a row. -/
def presentIn (bits : List Byte) : Nat := bits.foldl (fun n b => n + popc 8 b.toNat) 0

/-- The rows of CPYSP from row `i` on: the count of present values. -/
def State.expandRows (s : State) (c : Cmd) : Nat → Nat → Dword → Nat → CmdRes Nat
  | 0, _, _, n => (.ok n, s)
  | left + 1, i, p, n =>
    let e := elemBytes c.ty
    let w := c.spCols / 8
    match s.cmdBytes c c.x p w with
    | (.error f, s) => (.error f, s)
    | (.ok bits, s) =>
      let k := presentIn bits
      match s.cmdBytes c c.x (p + BitVec.ofNat 64 w) (k * e) with
      | (.error f, s) => (.error f, s)
      | (.ok vals, s) =>
        let s := s.cmdScratchPut c ((c.a.toNat + i * c.spStride) % 2 ^ 64) (expandRow e bits vals c.spCols 0)
        s.expandRows c left (i + 1) (p + BitVec.ofNat 64 (alignUp (w + k * e) 16)) (n + k)

/-- The walk descriptor of CSRWK (R238). -/
def Cmd.wkCol (c : Cmd) : Dword := BitVec.ofNat 64 (leNat (c.walk.take 8))
def Cmd.wkVal (c : Cmd) : Dword := BitVec.ofNat 64 (leNat ((c.walk.drop 8).take 8))
def Cmd.wkOcol (c : Cmd) : Nat := leNat ((c.walk.drop 16).take 4)
def Cmd.wkOval (c : Cmd) : Nat := leNat ((c.walk.drop 20).take 4)
def Cmd.wkOptr (c : Cmd) : Nat := leNat ((c.walk.drop 24).take 4)
def Cmd.wkCap (c : Cmd) : Nat := leNat ((c.walk.drop 28).take 2)
def Cmd.wkEsize (c : Cmd) : Nat := leNat ((c.walk.drop 30).take 1)
def Cmd.wkFlags (c : Cmd) : Nat := leNat ((c.walk.drop 31).take 1)
def Cmd.wkLo (c : Cmd) : Nat := getBits c.y 0 32
def Cmd.wkHi (c : Cmd) : Nat := getBits c.y 32 32
/-- The size of a row pointer. -/
def Cmd.wkPtr (c : Cmd) : Nat := if c.wkFlags % 2 = 1 then 8 else 4

/-- The row pointers from `k` on, `n` of them. -/
def State.rowPtrs (s : State) (c : Cmd) : Nat → Nat → CmdRes (List Nat)
  | 0, _ => (.ok [], s)
  | n + 1, k =>
    match s.cmdBytes c c.x (c.x + BitVec.ofNat 64 (c.wkPtr * k)) c.wkPtr with
    | (.error e, s) => (.error e, s)
    | (.ok bs, s) =>
      match s.rowPtrs c n (k + 1) with
      | (.error e, s) => (.error e, s)
      | (.ok l, s) => (.ok (leNat bs :: l), s)

/-- The elements `t` onwards copied, `n` of them. -/
def State.walkElems (s : State) (c : Cmd) (first : Nat) : Nat → Nat → CmdRes Unit
  | 0, _ => (.ok (), s)
  | n + 1, t =>
    let e := 2 ^ c.wkEsize
    match s.cmdBytes c c.wkCol (c.wkCol + BitVec.ofNat 64 (4 * (first + t))) 4 with
    | (.error f, s) => (.error f, s)
    | (.ok col, s) =>
      match s.cmdBytes c c.wkVal (c.wkVal + BitVec.ofNat 64 (e * (first + t))) e with
      | (.error f, s) => (.error f, s)
      | (.ok val, s) =>
        ((s.cmdScratchPut c (c.wkOcol + 4 * t) col).cmdScratchPut c (c.wkOval + e * t) val).walkElems c first n (t + 1)

/-- Numbers that do not fall. -/
def rising : List Nat → Bool
  | a :: b :: rest => a ≤ b && rising (b :: rest)
  | _ => true

/-- CSRWK: COUNT and MARK. -/
def State.walkRows (s : State) (c : Cmd) : CmdRes (Nat × Bool) :=
  match s.rowPtrs c (c.wkHi - c.wkLo + 1) c.wkLo with
  | (.error e, s) => (.error e, s)
  | (.ok ps, s) =>
    let first := ps.headD 0
    let n := ps.getLastD 0 - first
    if !rising ps ∨ n ≥ 2 ^ 32 then (.error { reason := 16, kind := 0, va := 0, off := 0 }, s)
    else
      let s := (List.range ps.length).foldl (fun s k =>
        s.cmdScratchPut c (c.wkOptr + 4 * k) (leBytes 4 ((ps[k]?).getD 0 - first))) s
      match s.walkElems c first (min n c.wkCap) 0 with
      | (.error e, s) => (.error e, s)
      | (.ok _, s) => (.ok (n, decide (n > c.wkCap)), s)

/-! ### Pool commands (R252, R253) -/

/-- A word of the device. -/
def State.deviceWord (s : State) (pw : PWord) : Word := memWord s.mem (pwKey pw)

/-- A word of a pool command's operand: on a KIND 2 page, or for a source of POOLRED on a KIND 0 or 1 page too. -/
def State.poolXlat (s : State) (c : Cmd) (write source : Bool) (base : Dword) (j : Nat) : CmdRes PWord :=
  let va := base + BitVec.ofNat 64 (4 * j)
  match s.cmdWord c { write := write } va (4 * j) with
  | (.error e, s) => (.error e, s)
  | (.ok pw, s) =>
    if pw.kind = 2 ∨ (source ∧ pw.kind ≤ 1) then (.ok pw, s)
    else (.error { reason := 18, kind := kKIND, va := va.toNat, off := 4 * j }, s)

/-- A word of an operand read at the device, or at its home at system scope. -/
def State.poolWord (s : State) (c : Cmd) (source : Bool) (base : Dword) (j : Nat) : CmdRes Word :=
  match s.poolXlat c false source base j with
  | (.error e, s) => (.error e, s)
  | (.ok pw, s) =>
    let (x, bad) := s.sysRead pw
    if bad then (.error { reason := 18, kind := 0, va := (base + BitVec.ofNat 64 (4 * j)).toNat, off := 4 * j }, s)
    else (.ok x, s)

/-- A word written at the device. -/
def State.poolStore (s : State) (c : Cmd) (j : Nat) (x : Word) : CmdRes Unit :=
  match s.poolXlat c true false c.a j with
  | (.error e, s) => (.error e, s)
  | (.ok pw, s) => (.ok (), s.poolPut pw x false)

/-- Words `j` onwards of an operand, `n` of them. -/
def State.poolWords (s : State) (c : Cmd) (source : Bool) (base : Dword) : Nat → Nat → CmdRes (List Word)
  | 0, _ => (.ok [], s)
  | n + 1, j =>
    match s.poolWord c source base j with
    | (.error e, s) => (.error e, s)
    | (.ok x, s) =>
      match s.poolWords c source base n (j + 1) with
      | (.error e, s) => (.error e, s)
      | (.ok l, s) => (.ok (x :: l), s)

/-- Words written from word `j` on. -/
def State.poolStores (s : State) (c : Cmd) : Nat → List Word → CmdRes Unit
  | _, [] => (.ok (), s)
  | j, x :: rest =>
    match s.poolStore c j x with
    | (.error e, s) => (.error e, s)
    | (.ok _, s) => s.poolStores c (j + 1) rest

/-- POOLRED's operation on one element (R252). -/
def poolOp (ty op : Nat) (d x : Word) : Word :=
  if ty = 3 then
    BitVec.ofNat 32 (if op = 0 then (faddOp F32 0 d.toNat x.toNat).1 else fminmaxOp F32 (op == 2) d.toNat x.toNat)
  else if op = 0 then d + x
  else if op = 1 then (if x.toInt < d.toInt then x else d)
  else if d.toInt < x.toInt then x else d

/-- The results of POOLRED from what its operands hold now. -/
def State.poolReds (s : State) (c : Cmd) (n : Nat) : CmdRes (List Word) :=
  match s.poolWords c true c.x n 0 with
  | (.error e, s) => (.error e, s)
  | (.ok xs, s) =>
    match s.poolWords c false c.a n 0 with
    | (.error e, s) => (.error e, s)
    | (.ok ds, s) => (.ok ((ds.zip xs).map (fun p => poolOp c.ty (c.aop % 4) p.1 p.2)), s)

/-- The index of the first place where two lists differ, or their length. -/
def firstDiff : List Word → List Word → Nat
  | a :: as, b :: bs => if a = b then firstDiff as bs + 1 else 0
  | _, _ => 0

/-- A pool command: COUNT and MARK. -/
def State.runPool (s : State) (c : Cmd) : CmdRes (Nat × Bool) :=
  let len := getBits c.y 0 32
  let n := len / 4
  if c.fn = 6 then
    match s.poolStores c 0 ((List.range n).map (fun t => BitVec.ofNat 32 (getBits c.x (if t % 2 = 0 then 0 else 32) 32))) with
    | (.error e, s) => (.error e, s)
    | (.ok _, s) => (.ok (len, false), s)
  else if c.fn = 7 then
    match s.poolWords c false c.x n 0 with
    | (.error e, s) => (.error e, s)
    | (.ok ws, s) =>
      match s.poolStores c 0 ws with
      | (.error e, s) => (.error e, s)
      | (.ok _, s) => (.ok (len, false), s)
  else if c.fn = 8 then
    match s.poolWords c false c.a n 0 with
    | (.error e, s) => (.error e, s)
    | (.ok as, s) =>
      match s.poolWords c false c.x n 0 with
      | (.error e, s) => (.error e, s)
      | (.ok bs, s) =>
        let d := firstDiff as bs
        (.ok (d, decide (d < n)), s)
  else
    match s.poolReds c n with
    | (.error e, s) => (.error e, s)
    | (.ok ws, s) =>
      match s.poolStores c 0 ws with
      | (.error e, s) => (.error e, s)
      | (.ok _, s) => (.ok (n, false), s)

/-! ### XFER and XGET (R246) -/

/-- The target package of a transfer. -/
def Cmd.target (c : Cmd) : Nat := handlePkg c.x
/-- The window offset and the length of a transfer. `bm` holds Sd. -/
def Cmd.xlen (c : Cmd) : Nat := getBits c.y 0 32

/-- The local words of a transfer's source, poisoned or not. -/
def State.xferWords (s : State) (c : Cmd) : Nat → Nat → CmdRes (List (Word × Bool))
  | 0, _ => (.ok [], s)
  | n + 1, o =>
    let va := c.a + BitVec.ofNat 64 o
    let r : CmdRes (Word × Bool) :=
      if c.dsp then
        let x := (s.group c.group).scratchNat va.toNat 4
        (.ok (BitVec.ofNat 32 x.1, x.2), s)
      else match s.cmdWord c {} va o with
        | (.error e, s) => (.error e, s)
        | (.ok pw, s) => (.ok (s.sysRead pw), s)
    match r with
    | (.error e, s) => (.error e, s)
    | (.ok w, s) =>
      match s.xferWords c n (o + 4) with
      | (.error e, s) => (.error e, s)
      | (.ok l, s) => (.ok (w :: l), s)

/-- A transfer whose answer has not come. -/
def answerFail : CmdFail := { reason := 0, kind := 15, va := 0, off := 0 }
/-- A transfer within the package whose target is not resident (R245). -/
def heldFail : CmdFail := { reason := 0, kind := 14, va := 0, off := 0 }

/-- The packets of an XFER sent: into this package's own endpoints, or out over the fabric, where each waits for its target's
answer. The result says whether a word of them is poisoned. -/
def State.sendPackets (s : State) (c : Cmd) (count o : Nat) (poison : Bool) : List (Nat × Nat) → CmdRes Bool
  | [] => (.ok poison, s)
  | (off, len) :: rest =>
    match s.xferWords c (len / 4) o with
    | (.error e, s) => (.error e, s)
    | (.ok ws, s) =>
      let bads := ((List.range ws.length).filter (fun j => (ws[j]?).any (fun w => w.2))).map (fun j => 4 * j)
      let p : Packet := { src := s.pkg.toNat, id := c.id, handle := c.x, off := off, tkt := c.aop / 2 % 2 == 1, count := count
                          data := ws.flatMap (fun w => leBytes 4 w.1.toNat), bads := bads }
      if c.target = s.pkg.toNat then
        match s.deliver p with
        | (.refused r k va, s) => (.error { reason := r, kind := k, va := va, off := o }, s)
        | (.held, s) => (.error heldFail, s)
        | (.waits own pw, s) => (.error (waitFail own pw), s)
        | (.done, s) => s.sendPackets c count (o + len) (poison || !bads.isEmpty) rest
      else
        ((s.send (.packet p c.target)).request c.target (.xfer c.id off)).sendPackets c count (o + len) (poison || !bads.isEmpty)
          rest

/-- The words that XGET brought, written locally at system scope. -/
def State.storeLocal (s : State) (c : Cmd) : Nat → List (Word × Bool) → CmdRes Unit
  | _, [] => (.ok (), s)
  | o, (w, bad) :: rest =>
    let va := c.a + BitVec.ofNat 64 o
    let r : CmdRes Unit :=
      if c.dsp then
        let g := (s.group c.group).scratchPut va.toNat (leBytes 4 w.toNat)
        (.ok (), s.setGroup c.group (if bad then { g with scratchBad := addNat g.scratchBad va.toNat } else g))
      else match s.cmdWord c { write := true } va o with
        | (.error e, s) => (.error e, s)
        | (.ok pw, s) => (.ok (), s.sysWrite pw (fun _ => w) true bad)
    match r with
    | (.error e, s) => (.error e, s)
    | (.ok _, s) => s.storeLocal c (o + 4) rest

/-- A transfer failed because a word of it is poisoned: the words have been written as poisoned words (R340). -/
def poisonFail : CmdFail := { reason := 18, kind := 0, va := 0, off := 0 }

/-- The packets of an XGET within the package carried out in order: each read from the window and written locally. The result says
whether a word of them is poisoned. -/
def State.xgetLocal (s : State) (c : Cmd) (poison : Bool) : List (Nat × Nat) → CmdRes Bool
  | [] => (.ok poison, s)
  | (off, len) :: rest =>
    match s.fetchWindow c.x off len with
    | (.error (.refused r k va), s) => (.error { reason := r, kind := k, va := va, off := off - c.bm }, s)
    | (.error (.waits own pw), s) => (.error (waitFail own pw), s)
    | (.error _, s) => (.error heldFail, s)
    | (.ok ws, s) =>
      match s.storeLocal c (off - c.bm) ws with
      | (.error e, s) => (.error e, s)
      | (.ok _, s) => s.xgetLocal c (poison || ws.any (fun w => w.2)) rest

/-- The requests of an XGET to another package, one for each packet (R246). -/
def State.sendAsks (s : State) (c : Cmd) (l : List (Nat × Nat)) : State :=
  l.foldl (fun s x =>
    let p : Packet := { src := s.pkg.toNat, id := c.id, handle := c.x, off := x.1, data := [], bads := [], tkt := false, count := l.length }
    (s.send (.ask p x.2 c.target)).request c.target (.xget c.id x.1)) s

/-- A request of transfer `id` has no answer yet. -/
def FabReq.ofCmd (r : FabReq) (id : Nat) : Bool :=
  match r.what with
  | .xfer i _ | .xget i _ => i == id
  | .access _ => r.who == .cmd id
  | _ => false
/-- A transfer carried on (R246): its packets or its request go out first where its target is another package, and it ends once
every answer has come. Its end is COUNT 0, or its failure; reason 0 marks one that waits. -/
def State.runXfer (s : State) (c : Cmd) : CmdRes (Nat × Bool) :=
  if c.target != s.pkg.toNat && (s.peer c.target).departed then (.error { reason := 20, kind := 0, va := 0, off := 0 }, s)
  else match c.refused with
  | some f => (.error f, s)
  | none =>
    let ps := packetsOf c.bm c.xlen
    let ends := fun (poison : Bool) (s : State) => ((if poison then .error poisonFail else .ok (0, false), s) : CmdRes (Nat × Bool))
    if c.target = s.pkg.toNat then
      match (if c.fn = 4 then s.sendPackets c ps.length 0 false ps else s.xgetLocal c false ps) with
      | (.error e, s) => (.error e, s)
      | (.ok poison, s) => ends poison s
    else if c.moved != 0 then
      if s.fabric.any (fun r => r.ofCmd c.id) then (.error answerFail, s) else ends (c.fin == some (0, true)) s
    else if c.fn = 4 then
      match s.sendPackets c ps.length 0 false ps with
      | (.error e, s) => (.error e, s)
      | (.ok poison, s) => (.error answerFail, s.setCmd { c with moved := ps.length, fin := some (0, poison) })
    else (.error answerFail, (s.sendAsks c ps).setCmd { c with moved := ps.length, fin := some (0, false) })

/-! ### Completion (R229 to R231) -/

/-- The status of a command that ended well, or failed (R230). -/
def okStatus (count : Nat) (mark : Bool) : Dword := BitVec.ofNat 64 (bnat mark * 2 ^ 62 + count % 2 ^ 32)
def failStatus (f : CmdFail) : Dword :=
  BitVec.ofNat 64 (2 ^ 63 + f.reason % 256 * 2 ^ 48 + f.kind % 16 * 2 ^ 44 + f.off % 2 ^ 32)

/-- A command leaves its engine, and its requests on the fabric with it: its counter reports it, and a failure that this report makes due is pending in a handler
(R231). -/
def State.cmdGone (s : State) (c : Cmd) : State :=
  let s := { s with cmds := s.cmds.filter (fun x => x.id != c.id), fabric := s.fabric.filter (fun r => !r.ofCmd c.id) }
  s.updHart c.hart (fun h => Hart.pendFails { h with m :=
    if c.fn = 4 ∨ c.fn = 5 then { h.m with fb := opsDone h.m.fb c.id } else { h.m with cp := opsDone h.m.cp c.id } })

/-- A command ended well. -/
def State.cmdDone (s : State) (c : Cmd) (count : Nat) (mark : Bool) : State :=
  let s := if c.fn = 4 ∨ c.fn = 5 then s else s.fillToken c.hart c.group c.token (okStatus count mark)
  s.cmdGone c

/-- The failure that the owner of a command has to take (R231): in its handler it becomes pending once it is due. -/
def holdFail (f : HeldFail) (h : Hart) : Hart := Hart.pendFails { h with m := { h.m with fails := h.m.fails ++ [f] } }

/-- A command failed (R231). -/
def State.cmdFail (s : State) (c : Cmd) (f : CmdFail) : State :=
  let xf := c.fn = 4 ∨ c.fn = 5
  let s := if xf then s else s.fillToken c.hart c.group c.token (failStatus f)
  let s := if c.nt || !s.groupLives c.group then s
    else s.updHart c.hart (holdFail { reason := f.reason, kind := f.kind, fn := c.fn, va := BitVec.ofNat 64 f.va,
                                      token := if xf then 0 else c.token, op := if xf then some c.id else none })
  s.cmdGone c

/-- A command carried out to its end: COUNT and MARK, or its failure. -/
def State.runCmd (s : State) (c : Cmd) : CmdRes (Nat × Bool) :=
  if c.fn ≤ 1 then
    match s.moveTo c (c.total / 4) with
    | (.error e, s) => (.error e, s)
    | (.ok _, s) => (.ok (c.total, false), s)
  else if c.fn = 2 then
    match s.expandRows c c.spRows 0 c.x 0 with
    | (.error e, s) => (.error e, s)
    | (.ok n, s) => (.ok (n, false), s)
  else if c.fn = 3 then (match c.refused with
    | some f => (.error f, s)
    | none => s.walkRows c)
  else if c.fn ≤ 5 then s.runXfer c
  else s.runPool c

/-- Dirty copies in the cluster's L2 of pool words that a copy has written: the device has no write of them yet (R193). -/
def State.cmdPool (s : State) (c : Cmd) : Bool :=
  c.fn ≤ 1 && !c.dsp && s.copies.any (fun (x : Copy) => x.node == chainNode c.core 1 && x.key.pw.kind == 2 && isDirty x.st
    && x.key.asid == c.asid.toNat && decide (c.a.toNat ≤ x.key.va ∧ x.key.va < c.a.toNat + c.reach c.dstStride))

/-- A command whose accesses are all made ends once its writes are performed at its scope (R193, R194, R229), with its bits. -/
def State.settleCmd (s : State) (c : Cmd) (count : Nat) (mark : Bool) : State :=
  if s.acksIn c.acks && !s.cmdPool c then
    match s.bitFail c (List.range c.chunks) with
    | some f => s.cmdFail c f
    | none => (s.markAll c).cmdDone c count mark
  else s.setCmd { c with fin := some (count, mark) }

/-- A transfer within the package is held: its packets are sent again 4,096 core clocks later (R245). -/
def State.holdOwn (s : State) (c : Cmd) : State :=
  if s.fabric.any (fun r => r.ofCmd c.id) then s
  else { s with nextId := s.nextId + 1
                fabric := s.fabric ++ [{ id := s.nextId, peer := s.pkg.toNat, what := .xfer c.id c.bm, failed := 0, via := none,
                                         sentAt := s.clock, held := true }] }
/-- A transfer within the package that is held, and not to be sent again yet. -/
def State.ownHeld (s : State) (c : Cmd) : Bool :=
  (c.fn == 4 || c.fn == 5) && s.fabric.any (fun r => r.peer == s.pkg.toNat && r.held && r.ofCmd c.id)

/-- What a command that waits leaves behind: the requests that it has sent, or what it asks its homes for. -/
def State.cmdWaits (s0 s : State) (c : Cmd) (f : CmdFail) : State :=
  if f.kind = 15 then (if c.moved = 0 then s else s0) else if f.kind = 14 then s0.holdOwn c else s0.cmdAsk c f

/-- A command ended as its accesses give. -/
def State.endCmd (s0 : State) (c : Cmd) : State :=
  if s0.ownHeld c then s0 else
  match (if c.fn = 4 ∨ c.fn = 5 then none else c.fin) with
  | some (n, m) => s0.settleCmd c n m
  | none =>
    match s0.runCmd c with
    | (.ok (n, m), s) =>
      let c := (s.cmd? c.id).getD c
      (if c.fn ≤ 1 then s else s.setCmd (s.cmdAcks c s0.parity.sent.length)).settleCmd
        (if c.fn ≤ 1 then c else s.cmdAcks c s0.parity.sent.length) n m
    | (.error f, s) => if f.reason = 0 then s0.cmdWaits s c f else s.cmdFail c f

/-! ### The checks of a command (R228, R232, R235 to R238, R246, R252) -/

/-- The bytes of an operand: rows at a stride from its address on. -/
structure Extents where
  rows : Nat
  bytes : Nat
  stride : Nat
  deriving DecidableEq, Repr
/-- `n` bytes in one run. -/
def run (n : Nat) : Extents := { rows := 1, bytes := n, stride := 0 }
/-- The lowest byte of an operand, as its offset there, at offset `lo` or above. -/
def Extents.from_ (e : Extents) (lo : Nat) : Option Nat :=
  let r := lo / max e.stride 1
  if e.bytes = 0 ∨ e.rows = 0 then none
  else if e.rows = 1 ∨ e.stride = 0 then (if lo < e.bytes then some lo else none)
  else if r < e.rows ∧ lo - r * e.stride < e.bytes then some lo
  else if r + 1 < e.rows then some ((r + 1) * e.stride) else none

/-- The refusal of the lowest address of an operand that one of these checks refuses: each gives a kind and the offset from which
on it refuses (R196, R230). -/
def lowestRefusal (va : Nat) (l : List (Option Nat × Nat)) : Option CmdFail :=
  (lowestFault (l.filterMap (fun x => x.1.map (fun o => (BitVec.ofNat 64 o, x.2))))).map (fun x =>
    { reason := 18, kind := x.2, va := (va + x.1.toNat) % 2 ^ 64, off := x.1.toNat })

/-- A refusal found at the core for a memory operand, aligned to `al`. -/
def memOperand (ws : Dword) (write : Bool) (al : Nat) (e : Extents) (va : Dword) : Option CmdFail :=
  let wbase := getBits ws 30 27 * 2 ^ 30
  let wend := wbase + getBits ws 0 4 * 2 ^ 30
  let a := va.toNat % 2 ^ 57
  lowestRefusal va.toNat [
    (if !canonical va then some 0 else if va.toNat < 2 ^ 56 then e.from_ (2 ^ 56 - va.toNat) else none, kNONCANON),
    (if va.toNat % al != 0 then some 0 else none, kMISALIGN),
    (if write && wbase < wend && a < wend then (e.from_ (wbase - a)).filter (fun o => a + o < wend) else none, kWSWRITE)]

/-- The same for a scratchpad operand. -/
def scratchOperand (g : Group) (al : Nat) (e : Extents) (off : Dword) : Option CmdFail :=
  lowestRefusal off.toNat [
    (if off.toNat % al != 0 then some 0 else none, kMISALIGN),
    (e.from_ (g.scratchSize - off.toNat), kSCRATCH)]

/-- The destination and the source of a copy. -/
def Cmd.dstExtents (c : Cmd) : Extents := { rows := c.rows, bytes := c.rowBytes, stride := c.dstStride }
def Cmd.srcExtents (c : Cmd) : Extents := { rows := c.rows, bytes := c.rowBytes, stride := c.srcStride }

/-- The first of several checks that fails. -/
def firstFail (l : List (Option CmdFail)) : Option CmdFail := l.findSome? (fun x => x)
/-- A limit that an operand's value breaks. -/
def limit (bad : Bool) (reason : Nat := 16) : Option CmdFail :=
  if bad then some { reason := reason, kind := 0, va := 0, off := 0 } else none

/-- The checks of R228 after the field checks: the address checks, then those of the operand values. -/
def State.cmdRefusal (s : State) (ws : Dword) (c : Cmd) : Option CmdFail :=
  let g := s.group c.group
  if c.fn ≤ 1 then
    firstFail [
      if c.dsp then scratchOperand g 4 c.dstExtents c.a else memOperand ws true 4 c.dstExtents c.a,
      if c.ssp then scratchOperand g 4 c.srcExtents c.x else memOperand ws false 4 c.srcExtents c.x,
      if c.hasBm then scratchOperand g 8 (run (8 * ((c.chunks + 63) / 64))) (BitVec.ofNat 64 c.bm) else none,
      if c.fn = 0 then limit (c.rowBytes % 4 != 0 || getBits c.y 32 32 != 0)
      else limit (c.rowBytes % 4 != 0 || c.rowBytes == 0 || c.rows == 0 || decide (c.srcStride < c.rowBytes)
        || decide (c.dstStride < c.rowBytes))]
  else if c.fn = 2 then
    let e := elemBytes c.ty
    firstFail [scratchOperand g 1 { rows := c.spRows, bytes := c.spCols * e, stride := c.spStride } c.a,
      memOperand ws false 16 (run 0) c.x,
      limit (c.spCols % 32 != 0 || c.spCols == 0 || decide (c.spCols > 1024) || c.spRows == 0 || decide (c.spRows > 1024)
        || c.spStride % 16 != 0 || decide (c.spStride < c.spCols * e) || getBits c.y 48 16 != 0)]
  else if c.fn = 3 && c.refused.isSome then scratchOperand g 1 (run 32) c.a
  else if c.fn = 3 then
    let rows := c.wkHi - c.wkLo + 1
    let e := 2 ^ (c.wkEsize % 4)
    firstFail [scratchOperand g 1 (run 32) c.a, memOperand ws false c.wkPtr (run 0) c.x, memOperand ws false 4 (run 0) c.wkCol,
      memOperand ws false e (run 0) c.wkVal, scratchOperand g 4 (run (4 * c.wkCap)) (BitVec.ofNat 64 c.wkOcol),
      scratchOperand g 4 (run (e * c.wkCap)) (BitVec.ofNat 64 c.wkOval),
      scratchOperand g 4 (run (4 * rows)) (BitVec.ofNat 64 c.wkOptr),
      limit (decide (c.wkHi < c.wkLo) || decide (c.wkHi - c.wkLo > 65535) || decide (c.wkEsize > 3) || decide (c.wkFlags > 1))]
  else if c.fn ≤ 5 then
    firstFail [
      if c.dsp then scratchOperand g 4 (run c.xlen) c.a else memOperand ws (c.fn == 5) 4 (run c.xlen) c.a,
      limit (getBits c.x 0 28 != 0 || decide (c.target > s.podn.toNat)) 17,
      limit (c.bm % 4 != 0 || c.xlen % 4 != 0 || getBits c.y 32 32 != 0)]
  else
    let n := getBits c.y 0 32
    firstFail [memOperand ws (c.fn != 8) 4 (run n) c.a, if c.fn = 6 then none else memOperand ws false 4 (run n) c.x,
      limit (n % 4 != 0 || getBits c.y 32 32 != 0)]

/-- A command of length 0 completes at once. -/
def Cmd.empty (c : Cmd) : Bool :=
  if c.fn = 0 then c.total == 0 else if c.fn ≤ 3 then false else getBits c.y 0 32 == 0

/-! ### The instructions -/

/-- The scope at which a command is performed: never narrower than its cluster (R188). -/
def cmdScope (sc : Scope) : Scope := if sc == .core then .clus else sc

/-- The failure of a CSRWK whose descriptor at `a` holds an uncorrectable word (R340, log entry 83). -/
def walkFail (g : Group) (a : Dword) : Option CmdFail :=
  ((List.range 8).find? (fun j => g.scratchBad.contains (a.toNat / 4 * 4 + 4 * j))).map (fun j =>
    { reason := 18, kind := 0, va := a.toNat / 4 * 4 + 4 * j, off := 4 * j })

/-- A command instruction as a command, with `bm` the bitmap offset or Sd. -/
def mkCmd (f : FA) (fn : Nat) (s : State) : Cmd :=
  let h := s.cur
  let bm := fn ≤ 1 && f.aop.toNat / 4 % 2 == 1
  let a := if bm then h.r.getS f.sa.toNat else FA.ea f s
  { id := 0, fn := fn, aop := f.aop.toNat, ty := f.ty.toNat, scope := cmdScope f.sc, hart := h.id, group := h.pl.group,
    token := lowS f.d, cluster := clusterOf h.pl.core, priv := h.c.priv, asid := s.asidOf h, a := a,
    x := h.r.getS (lowS f.x), y := h.r.getS (lowS f.y),
    bm := if fn = 4 ∨ fn = 5 then (h.r.getS (lowS f.d)).toNat else f.off.toNat,
    walk := if fn = 3 then memRead s.myGroup.scratch a.toNat 32 else [], moved := 0, bits := [], got := none, fin := none, acks := []
    slot := none, refused := if fn = 3 then walkFail s.myGroup a else none }

/-- A command that leaves the issue stage. -/
def State.startCmd (s : State) (c : Cmd) : State :=
  let (id, s) := s.newId
  let c := { c with id := id }
  let s := { s with cmds := s.cmds ++ [c] }
  s.updHart c.hart (fun h =>
    if c.fn = 4 ∨ c.fn = 5 then { h with m := { h.m with fb := h.m.fb ++ [{ id := id, done := false }] } }
    else { h with m := { h.m with cp := h.m.cp ++ [{ id := id, done := false }] }, r := h.r.setFullS c.token false })

/-- A command instruction (R228): the checks, the release, and its start. One of length 0 completes at once, and its counter reports
it in its turn (R189). -/
def command (i : Instr) (f : FA) (fn : Nat) (s : State) : Out :=
  issue i f.g s (fun s =>
    let c := mkCmd f fn s
    match s.cmdRefusal s.cur.y.wswin c with
    | some e =>
      if e.reason = 18 then trapAt i { cls := 3, kind := e.kind, va := BitVec.ofNat 64 e.va } s
      else trapAt i { cls := 10, reason := e.reason, detail := BitVec.ofNat 64 (if fn = 4 ∨ fn = 5 then 0 else c.token) } s
    | none =>
      let count := if fn = 4 ∨ fn = 5 then s.cur.m.fb.length else s.cur.m.cp.length
      withRelease (isRel f.ord) c.scope s (fun s =>
        if count ≥ 63 then stall s
        else
          let t := s.startCmd c
          retire (if c.empty then t.cmdDone { c with id := s.nextId } 0 false else t)))

/-- CPY (R235). -/
def execCpy (f : FA) (s : State) : Out := command (.cpy f) f 0 s
/-- CPY2D (R235). -/
def execCpy2d (f : FA) (s : State) : Out := command (.cpy2d f) f 1 s
/-- CPYSP (R237). -/
def execCpysp (f : FA) (s : State) : Out := command (.cpysp f) f 2 s
/-- CSRWK (R238). -/
def execCsrwk (f : FA) (s : State) : Out := command (.csrwk f) f 3 s
/-- XFER (R246). -/
def execXfer (f : FA) (s : State) : Out := command (.xfer f) f 4 s
/-- XGET (R246). -/
def execXget (f : FA) (s : State) : Out := command (.xget f) f 5 s
/-- POOLFILL (R252). -/
def execPoolfill (f : FA) (s : State) : Out := command (.poolfill f) f 6 s
/-- POOLCOPY (R252). -/
def execPoolcopy (f : FA) (s : State) : Out := command (.poolcopy f) f 7 s
/-- POOLCMP (R252). -/
def execPoolcmp (f : FA) (s : State) : Out := command (.poolcmp f) f 8 s
/-- POOLRED (R252). -/
def execPoolred (f : FA) (s : State) : Out := command (.poolred f) f 9 s

/-! ### The command ring (R239 to R241) -/

/-- The fields of CRING. -/
def ringLogn (r : Dword) : Nat := getBits r 40 4
def ringNotify (r : Dword) : Nat := getBits r 21 15 * 8
def ringBase (r : Dword) : Nat := getBits r 5 13 * 32

/-- A ring entry as a command of the publishing stream. -/
def ringCmd (h owner : Hart) (asid : BitVec 16) (g : Group) (bs : List Byte) : Cmd :=
  let byte := fun (k : Nat) => ((bs[k]?).getD 0).toNat
  let num := fun (k n : Nat) => leNat ((bs.drop k).take n)
  let fn := byte 0
  { id := 0, fn := fn, aop := byte 1 % 16, ty := byte 1 / 16, scope := cmdScope (scopeOfCode (BitVec.ofNat 3 (byte 2))),
    hart := owner.id, group := h.pl.group, token := byte 3 % 128, cluster := clusterOf h.pl.core, priv := h.c.priv,
    asid := asid, a := BitVec.ofNat 64 (num 8 8), x := BitVec.ofNat 64 (num 16 8), y := BitVec.ofNat 64 (num 24 8),
    bm := num 5 3, walk := if fn = 3 then memRead g.scratch (num 8 8) 32 else [], moved := 0, bits := [], got := none, fin := none
    acks := [], slot := none, refused := if fn = 3 then walkFail g (BitVec.ofNat 64 (num 8 8)) else none }

/-- The fields of an entry that the ring or the instruction's own encoding forbids (R240, R254). -/
def entryMalformed (bs : List Byte) : Bool :=
  let byte := fun (k : Nat) => ((bs[k]?).getD 0).toNat
  let fn := byte 0
  let aop := byte 1 % 16
  let ty := byte 1 / 16
  !(fn ≤ 3 || (6 ≤ fn && fn ≤ 9)) || byte 2 ≥ 8 || byte 3 ≥ 128 || byte 4 ≥ 16
    || (if fn ≤ 1 then ty != 0 else if fn = 2 then !(1 ≤ ty && ty ≤ 10) || aop % 8 != 0
        else if fn = 9 then !(ty == 1 || ty == 3) || aop % 8 > 2 else ty != 0 || aop % 8 != 0)
    || (6 ≤ fn && byte 2 != 6)

/-- The warp of the publishing stream's workgroup that an entry names. -/
def State.entryOwner (s : State) (bs : List Byte) : Option Hart :=
  (s.warpsOf s.cur.pl.group).find? (fun w => w.pl.widx == ((bs[4]?).getD 0).toNat % 16)

/-- One entry accepted (R241): the named warp's token becomes empty and its counter rises, then the entry is checked. `bad` names the
uncorrectable words of the entry (R340): one whose warp or token cannot be read fails the publisher, any other the entry (log entry 83). -/
def State.acceptEntry (s : State) (bs : List Byte) (bad : List Nat) : State :=
  let h := s.cur
  let g := s.myGroup
  if bad.any (fun o => o < 8) then
    s.updHart h.id (holdFail { reason := 18, kind := 0, fn := 0, va := 0, token := 0, op := none })
  else match s.entryOwner bs with
  | none =>
    s.updHart h.id (holdFail { reason := 21, kind := 0, fn := ((bs[0]?).getD 0).toNat % 64, va := 0,
                               token := ((bs[3]?).getD 0).toNat % 128, op := none })
  | some owner =>
    let c := ringCmd h owner (s.asidOf h) g bs
    let s := s.startCmd c
    let c := { c with id := s.nextId - 1 }
    let refusal := if !bad.isEmpty then some { reason := 18, kind := 0, va := 0, off := 0 }
      else if entryMalformed bs then limit true 21 else s.cmdRefusal h.y.wswin c
    match refusal with
    | some e => s.cmdFail c e
    | none => if c.empty then s.cmdDone c 0 false else s

/-- The owner of the next entry may count one more command, and the entry's token is not empty (R189, R229). -/
def State.ringRoom (s : State) (bs : List Byte) : Bool :=
  match s.entryOwner bs with
  | none => true
  | some owner => owner.m.cp.length < 63 && owner.r.fullS (((bs[3]?).getD 0).toNat % 128)

/-- The place of the entry of number `k` of the ring. -/
def ringPlace (g : Group) (k : Nat) : Nat := ringBase g.cring + 32 * (k % 2 ^ ringLogn g.cring)
/-- The entry of number `k` of the ring, and the offsets of its uncorrectable words. -/
def ringEntry (g : Group) (k : Nat) : List Byte := memRead g.scratch (ringPlace g k) 32
def ringBad (g : Group) (k : Nat) : List Nat :=
  ((List.range 8).map (fun j => 4 * j)).filter (fun o => g.scratchBad.contains (ringPlace g k + o))

/-- Entries accepted up to `n` more, while their owners have room. -/
def State.acceptEntries (s : State) : Nat → State
  | 0 => s
  | n + 1 =>
    let g := s.myGroup
    let bs := ringEntry g g.crcons.toNat
    let bad := ringBad g g.crcons.toNat
    if !(bad.any (fun o => o < 8)) && !s.ringRoom bs then s
    else
      let s := s.acceptEntry bs bad
      (s.setMyGroup { s.myGroup with crcons := s.myGroup.crcons + 1 }).acceptEntries n

/-- A publish of `v` by the executing stream (R241): whether every entry is accepted, and the state after. -/
def State.publish (s : State) (v : Dword) : Bool × State :=
  let g := s.myGroup
  let d := (v - g.crcons).toInt
  if ringLogn g.cring = 0 ∨ ringLogn g.cring > 13 ∨ d ≤ 0 then (true, s)
  else if d.toNat > 2 ^ ringLogn g.cring then
    (true, s.updHart s.cur.id (holdFail { reason := 21, kind := 0, fn := 0, va := 0, token := 0, op := none }))
  else
    let s := s.acceptEntries d.toNat
    (decide ((v - s.myGroup.crcons).toInt ≤ 0), s)

/-- A write of `n` bytes at a scratchpad offset touches the notify word. -/
def notifies (g : Group) (off n : Nat) : Bool :=
  1 ≤ ringLogn g.cring && ringLogn g.cring ≤ 13 && off < ringNotify g.cring + 8 && ringNotify g.cring < off + n

/-- A write to the notify word retires once the entries up to its value `v` are accepted (R241); the warp keeps the value that it
wrote while it waits. -/
def publishBody (i : Instr) (v : Dword) (s : State) : Out :=
  match s.publish v with
  | (true, s) => retire s
  | (false, s) => match stallFrom i s with
    | .next t => .next (t.mapCtl (fun c => { c with wait := c.wait.map (fun w => { w with v := v }) }))
    | o => o
/-- The value of a publish: the notify word as it stands (R241). -/
def notifyWord (g : Group) : Dword := BitVec.ofNat 64 (memNat g.scratch (ringNotify g.cring) 8)
/-- The write of instruction `i` to the scratchpad is a publish where it touches the notify word. -/
def afterScratchWrite (i : Instr) (touched : Bool) (s : State) : Out :=
  if !touched then retire s else publishBody i (notifyWord s.myGroup) s
/-- The value that the executing warp's waiting publish wrote. -/
def State.waitingPublish (s : State) (i : Instr) : Option Dword := (s.cur.c.wait.filter (fun w => w.i == i)).map (fun w => w.v)

/-- LST (R206). -/
def execLst (f : FM) (s : State) : Out :=
  issue (.lst f) f.g s (fun s =>
    match s.waitingPublish (.lst f) with
    | some v => publishBody (.lst f) v s
    | none =>
    let g := s.myGroup
    let scalar := f.sub.toNat ≥ 8
    let n := if scalar then stBytes (tySt f.ty) else 4
    let es := if scalar then [({ lane := 0, ea := FM.ea f s, data := leBytes n (s.cur.r.getS (lowS f.d)).toNat } : StElem)]
      else laneStores (laneMask s.cur f.g) (FM.scratchLane f s) (fun l => (s.cur.r.getV f.d.toNat).lane l)
    match coreCause (es.map (fun e => (e.ea, scratchFault g n n e.ea))) with
    | some c => trapAt (.lst f) c s
    | none =>
      withRelease (isRel f.ord) .core s (fun s =>
        afterScratchWrite (.lst f) (es.any (fun e => notifies g e.ea.toNat e.data.length))
          (s.setMyGroup (es.foldl (fun g e => g.scratchPut e.ea.toNat e.data) s.myGroup))))

/-- LATOM (R213): as VATOM on the scratchpad. -/
def execLatom (f : FA) (s : State) : Out :=
  issue (.latom f) f.g s (fun s =>
    match s.waitingPublish (.latom f) with
    | some v => publishBody (.latom f) v s
    | none =>
    let lanes := (lanesOf (laneMask s.cur f.g)).map (fun l => (l, FA.eaLane f s l))
    match coreCause (lanes.map (fun x => (x.2, scratchFault s.myGroup 4 4 x.2))) with
    | some c => trapAt (.latom f) c s
    | none =>
      let go := lanes.foldl (fun (acc : List (Nat × Option Nat) × Group) x =>
        let (old, bad) := acc.2.scratchNat x.2.toNat 4
        if bad then (acc.1 ++ [(x.1, none)], acc.2)
        else (acc.1 ++ [(x.1, some old)],
              acc.2.scratchPut x.2.toNat (leBytes 4 (atomNew f.aop.toNat 32 (f.ty == 1) old (FA.yLane f s x.1)))))
        ([], s.myGroup)
      let notes := lanes.foldl (fun (s : State) x => if (s.myGroup.scratchNat x.2.toNat 4).2
        then s.noteRecord (.vreg s.cur.id f.d.toNat) (s.recordOf (s.scratchSite x.2)) else s) s
      afterScratchWrite (.latom f) (lanes.any (fun x => notifies s.myGroup x.2.toNat 4))
        ((notes.mapRegs (atomResult f.d.toNat f.ty go.1)).setMyGroup go.2))

/-! ### The events -/

/-- Every access of a command is made. -/
def Cmd.ended (c : Cmd) : Bool := c.fin.isSome && c.fn != 4 && c.fn != 5
/-- A failure that comes from outside the package's own accesses: the answer of another package's target (R232). -/
def outsideFail (c : Cmd) (why : CmdFail) : Bool := c.refused == some why

/-- COMMAND_FAILURE (R231): a command fails as its own accesses give, or as its target has answered. -/
def execCommandFailure (id : Nat) (why : CmdFail) (s : State) : Out :=
  .next (match s.cmd? id with
    | none => s
    | some c =>
      if outsideFail c why then s.cmdFail c why
      else if c.ended then s
      else match s.runCmd c with
        | (.ok _, _) => s
        | (.error f, t) => if f.reason = 0 then s else t.cmdFail c f)

/-- BITMAP_CHUNK_SET (R236): a chunk of a copy is wholly written and performed, and its bit is set. Chunks take their bits in any
order. -/
def execBitmapChunkSet (x : ChunkRef) (s : State) : Out :=
  .next (match s.cmd? x.id with
    | none => s
    | some c =>
      if c.fn ≤ 1 && c.hasBm && x.chunk < c.chunks then
        match s.moveTo c (min (128 * (x.chunk + 1)) (c.total / 4)) with
        | (.ok c, t) =>
          if t.acksIn c.acks && !t.cmdPool c then
            (match t.bitFail c [x.chunk] with
            | some f => t.cmdFail c f
            | none => (t.markChunk c x.chunk).2)
          else t
        | (.error f, t) => if f.reason = 0 then s.cmdAsk c f else t.cmdFail c f
      else s)

/-- RING_PUBLISH (R241): a publish of `v` by stream `h` reaches Mitten. -/
def execRingPublish (h : Nat) (v : Dword) (s : State) : Out := .next (s.onLive h (fun s => (s.publish v).2))

/-- The port whose device holds an operand range of a pool command: one run of its addresses in one extent (R251). -/
def State.deviceRange (s : State) (c : Cmd) (write : Bool) (base : Dword) : Option Nat :=
  let n := getBits c.y 0 32 / 4
  match (s.poolXlat c write false base 0).1 with
  | .error _ => none
  | .ok pw =>
    if s.extents.any (fun e => e.port == poolPort pw.off && decide (e.base ≤ pw.off % 2 ^ 43 ∧ pw.off % 2 ^ 43 + 4 * n ≤ e.base + e.size))
      && (List.range n).all (fun j => match (s.poolXlat c write false base j).1 with
        | .ok q => q.off == pw.off + 4 * j
        | .error _ => false)
    then some (poolPort pw.off) else none

/-- The port whose device runs a pool command (R251): the device advertises its operation, and every range lies within it.
Otherwise a port carries it out with accesses of its own. -/
def State.onDevice (s : State) (c : Cmd) : Option Nat :=
  if c.fn < 6 then none
  else match s.deviceRange c (c.fn != 8) c.a with
    | none => none
    | some p => if (s.devs.at p PoolDev.zero).ops.testBit (c.fn - 6) && (s.devs.at p PoolDev.zero).slots != 0 && (c.fn == 6 || s.deviceRange c false c.x == some p)
      then some p else none

/-- The device physical address of an operand: its offset in the port's decode (log entry 25). -/
def State.deviceAddr (s : State) (c : Cmd) (write : Bool) (base : Dword) : Nat :=
  match (s.poolXlat c write false base 0).1 with
  | .ok pw => pw.off % 2 ^ 43
  | .error _ => 0
/-- The record of a pool command (R251). -/
def State.deviceRecord (s : State) (c : Cmd) (seq : Word) : List Byte :=
  leBytes 1 c.fn ++ leBytes 1 (c.aop % 16 + c.ty % 16 * 16) ++ leBytes 2 0 ++ leBytes 4 seq.toNat
    ++ leBytes 8 (s.deviceAddr c (c.fn != 8) c.a)
    ++ leBytes 8 (if c.fn = 6 then c.x.toNat else s.deviceAddr c false c.x) ++ leBytes 8 (getBits c.y 0 32) ++ List.replicate 24 0
    ++ leBytes 8 0
/-- The port writes a command's record to a slot of the device's window that no other command of the port holds; while there is
none, the command waits. -/
def State.writeRecord (s : State) (c : Cmd) (port : Nat) : State :=
  let d := s.devs.at port PoolDev.zero
  let used := (s.cmds.filter (fun x => s.onDevice x == some port)).filterMap (fun x => x.slot)
  match (List.range (min d.slots 1024)).find? (fun k => !used.contains k) with
  | none => s
  | some k =>
    let d' := { d with seq := d.seq + 1, window := d.window.put k (s.deviceRecord c d.seq) }
    { s with devs := s.devs.put port d' }.setCmd { c with slot := some k }
/-- The completion word of a slot (R251). -/
def PoolDev.completion (d : PoolDev) (k : Nat) : Dword := BitVec.ofNat 64 (leNat ((d.window.at k []).drop 56))

/-- POOL_DEVICE_COMPLETION (R251): the device has run a command, or has met an error, and writes its completion word. -/
def execPoolDeviceCompletion (id : Nat) (err : Bool) (s : State) : Out :=
  .next (match s.cmd? id with
    | none => s
    | some c => match s.onDevice c, c.slot with
      | some p, some k =>
        let done := fun (x : Dword) (s : State) =>
          let d := s.devs.at p PoolDev.zero
          { s with devs := s.devs.put p { d with window := d.window.put k ((d.window.at k []).take 56 ++ leBytes 8 x.toNat) } }
        if bit ((s.devs.at p PoolDev.zero).completion k) 63 then s
        else if err then done (BitVec.ofNat 64 (2 ^ 63 + 2 ^ 62)) s
        else match s.runPool c with
          | (.ok (n, m), s) => done (BitVec.ofNat 64 (2 ^ 63 + bnat m * 2 ^ 61 + n % 2 ^ 32)) s
          | (.error f, t) => if f.reason = 0 then s else t.cmdFail c f
      | _, _ => s)

/-- The port polls the completion word of a command's record. -/
def State.pollDevice (s : State) (c : Cmd) (port k : Nat) : State :=
  let x := (s.devs.at port PoolDev.zero).completion k
  if !bit x 63 then s
  else if bit x 62 then s.cmdFail c { reason := 22, kind := 0, va := 0, off := 0 }
  else s.cmdDone c (getBits x 0 32) (bit x 61)

/-- A pool command carried on: by its device, or streamed. A streamed POOLRED reads in one step and writes in another (R253). -/
def State.stepPool (s : State) (c : Cmd) : State :=
  match s.onDevice c, c.slot with
  | some p, some k => s.pollDevice c p k
  | some p, none => s.writeRecord c p
  | none, _ =>
    if c.fn != 9 then s.endCmd c
    else match c.got with
      | none => match s.poolReds c (getBits c.y 0 32 / 4) with
        | (.ok ws, t) => t.setCmd { c with got := some (ws.map (fun w => (w, false))) }
        | (.error f, t) => if f.reason = 0 then s.cmdAsk c f else t.cmdFail c f
      | some ws => match s.poolStores c 0 (ws.map (fun w => w.1)) with
        | (.ok _, t) => t.cmdDone c ws.length false
        | (.error f, t) => if f.reason = 0 then s.cmdAsk c f else t.cmdFail c f

/-- COMMAND_COMPLETE (R229): a command goes on to its end, or is found to fail (R231). -/
def execCommandComplete (id : Nat) (s : State) : Out :=
  .next (match s.cmd? id with
    | none => s
    | some c => if c.fn ≥ 6 then s.stepPool c else s.endCmd c)

end Sys2Proof.Machine
end

