-- ==== Sys2Proof/Machine/Matrix.lean ====
section
/-!
DEFINITION. Bowler's class 0xA instructions (R138 to R169) and the commands of BCTL (R167).
-/

namespace Sys2Proof.Machine

/-! ### The stream's engine state -/

def State.mapBow (s : State) (f : Bowler → Bowler) : State := s.mapCur (fun h => { h with bow := f h.bow })
/-- Flags added to EFLG (R153). -/
def State.addEflg (s : State) (fl : Flags) : State := s.mapBow (fun b => { b with eflg := b.eflg ||| fl.zeroExtend 64 })

/-- RP (R156). -/
def rpWord (op td group rows : Nat) : Dword :=
  BitVec.ofNat 64 (2 ^ 63 + op % 4 * 2 ^ 22 + td % 8 * 2 ^ 19 + group % 64 * 2 ^ 8 + rows % 128)
def rpValid (rp : Dword) : Bool := bit rp 63
def rpOp (rp : Dword) : Nat := getBits rp 22 2
def rpTd (rp : Dword) : Nat := getBits rp 19 3
def rpGroup (rp : Dword) : Nat := getBits rp 8 6
def rpRows (rp : Dword) : Nat := getBits rp 0 7
def State.setRp (s : State) (rp : Dword) : State := s.mapBow (fun b => { b with rp := rp })
def State.clearRp (s : State) : State := s.setRp (putBits s.cur.bow.rp 63 1 0)

def Bowler.tile (b : Bowler) (t : Nat) : Tile := vget b.tiles t Tile.zero
def State.setTile (s : State) (t : Nat) (x : Tile) : State := s.mapBow (fun b => { b with tiles := vset b.tiles t x })
/-- Element (i, j) of a tile. -/
def Tile.at (t : Tile) (i j : Nat) : Word := vget t.elems (64 * i + j) 0
/-- The first elements of row `i` replaced. -/
def Tile.putRow (t : Tile) (i : Nat) (xs : List Word) : Tile :=
  { t with elems := (xs.foldl (fun (p : Nat × Vector Word 4096) x => (p.1 + 1, vset p.2 (64 * i + p.1) x)) (0, t.elems)).2 }

/-! ### Engine reads (R157, R162) -/

/-- Why an engine access failed: poison, or a refusal of a kind, at an address of an operand (R166). `ask` marks one that has not
failed: it waits for these words (R178), or the pass stops at a row commit for a save (R168). -/
structure MFail where
  poison : Bool
  kind : Nat
  va : Dword
  opnd : Nat
  ask : Option (List (Dword × PWord)) := none
  deriving DecidableEq, Repr

/-- An access that waits. -/
def MFail.wait (ws : List (Dword × PWord)) : MFail := { poison := false, kind := 0, va := 0, opnd := 6, ask := some ws }

/-- The stop of a failed engine access: class 11, or class 10 with `reason` (R165). -/
def MFail.cause (f : MFail) (reason : Nat) : Cause :=
  if f.poison then { cls := 11, va := f.va } else { cls := 10, reason := reason, kind := f.kind, va := f.va }

/-- The outcome of instruction `i` whose engine read failed: its stop, or it waits at issue with what it has committed. -/
def engineStop (i : Instr) (f : MFail) (s : State) : Out :=
  match f.ask with
  | some ws => stall (s.askRead ws)
  | none => trapAt i (f.cause 6) s f.opnd

/-- The words at a list of addresses translated in order, up to the first that is refused. -/
def State.engineXlat (s : State) (acc : Acc) (opnd : Nat) : List Dword → List (Dword × PWord) × Option MFail × State
  | [] => ([], none, s)
  | va :: rest =>
    if !canonical va then ([], some { poison := false, kind := kNONCANON, va := va, opnd := opnd }, s)
    else match s.xlat acc false va with
      | (.error k, s) => ([], some { poison := false, kind := k, va := va, opnd := opnd }, s)
      | (.ok pw, s) =>
        let (l, e, s) := s.engineXlat acc opnd rest
        ((va, pw) :: l, e, s)

/-- The words of a row read, one access of the engine (R179); the first that is refused ends it. -/
def State.engineWords (s : State) (opnd : Nat) (vas : List Dword) : Except MFail (List (Dword × Word × Bool)) × State :=
  match s.engineXlat {} opnd vas with
  | (_, some e, s) => (.error e, s)
  | (xs, none, s) =>
    if s.readWaits xs then (.error (.wait xs), s)
    else
      let (ws, s) := s.readWords s.me xs
      (.ok ((xs.zip ws).map (fun x => (x.1.1, x.2))), s.noteSpans s.me (xs.map s.nameOf))

/-- The elements of `size` bytes in a row of `n`, as codes. -/
def rowCodes (ws : List (Dword × Word × Bool)) (n size : Nat) : List Nat :=
  let bs := ws.flatMap (fun w => leBytes 4 w.2.1.toNat)
  (List.range n).map (fun k => leNat ((bs.drop (k * size)).take size))

/-- A row of `n` elements read for a pass; poison stops it (R157). DESIGN CHOICE, log entry 71: where a row holds both a poisoned
word and a refused one, the refusal is reported. -/
def State.engineRow (s : State) (opnd : Nat) (addr : Dword) (n size : Nat) : Except MFail (List Nat) × State :=
  match s.engineWords opnd (wordsAt addr (n * size)) with
  | (.error e, s) => (.error e, s)
  | (.ok ws, s) => match ws.find? (fun w => w.2.2) with
    | some w => (.error { poison := true, kind := 0, va := w.1, opnd := opnd }, s)
    | none => (.ok (rowCodes ws n size), s)

/-- Bytes of an element (R149). -/
def mfSize (mf : Nat) : Nat := if mf = 0 then 1 else if mf = 4 then 4 else 2
/-- The K-step of a format (R149). -/
def mfStep (mf : Nat) : Nat := if mf = 0 then 32 else 8
/-- The L format in which elements of a format are multiplied (R151). -/
def mfLog (mf : Nat) : LFmt := if mf = 0 then L8 else L16
/-- The linear format of MF 2 to 4. -/
def mfLin (mf : Nat) : Fmt := if mf = 2 then BF16 else if mf = 3 then F16 else F32

/-- The address of row `i`. -/
def Desc.row (d : Desc) (i : Nat) : Dword := d.addr + BitVec.ofNat 64 i * d.stride

/-- An element with its block scale in its logarithm. -/
def LVal.under (v : LVal) (L : LFmt) (s : Int) : LVal :=
  match v with
  | .real n lam => .real n (lam + scaleUnits L s)
  | .zero => .zero
  | .nar => .nar

/-- An element as the load pipes give it, with the flags of its conversion (R151). -/
def loadElem (mf : Nat) (scale : Int) (c : Nat) : LVal × Flags :=
  if mf ≤ 1 then ((ldecode (mfLog mf) c).under (mfLog mf) scale, 0)
  else
    let r := (linToLog L16 (fdecode (mfLin mf) c) scale 0).get
    (ldecode L16 r.1, r.2)

/-- Row `i` of a descriptor's operand: its elements and their flags. -/
def State.operandRow (s : State) (opnd : Nat) (d : Desc) (i : Nat) : Except MFail (List LVal × Flags) × State :=
  match s.engineRow opnd (d.row i) d.k (mfSize d.mf) with
  | (.error e, s) => (.error e, s)
  | (.ok cs, s) =>
    let es := cs.map (loadElem d.mf d.scale.toInt)
    (.ok (es.map (fun e => e.1), es.foldl (fun f e => f ||| e.2) 0), s)

/-- The rows from `i` on, in order. -/
def State.operandRows (s : State) (opnd : Nat) (d : Desc) : List Nat → Except MFail (List (List LVal × Flags)) × State
  | [] => (.ok [], s)
  | i :: rest =>
    match s.operandRow opnd d i with
    | (.error e, s) => (.error e, s)
    | (.ok r, s) => match s.operandRows opnd d rest with
      | (.error e, s) => (.error e, s)
      | (.ok l, s) => (.ok (r :: l), s)

/-! ### The products (R152) -/

/-- The product of two elements as an exact linear value; zero where one is zero. -/
def lprod (L : LFmt) (a b : LVal) : FVal :=
  match a, b with
  | .real n x, .real m y => let p := prodLin L (x + y); .fin (n != m) p.1 p.2
  | _, _ => .fin false 0 0

def isNar : LVal → Bool
  | .nar => true
  | _ => false

/-- StepSum (R152): one K-step summed exactly and rounded once. -/
def stepSum (L : LFmt) (ps : List (LVal × LVal)) : Nat × Flags :=
  if ps.any (fun p => isNar p.1 || isNar p.2) then (F32.nan, fIV)
  else
    let vs := ps.map (fun p => lprod L p.1 p.2)
    let q := vs.foldl (fun acc v => min acc v.exp) 0
    (roundUnits F32 0 false (vs.foldl (fun acc v => acc + v.units q) 0) q).get

/-- One output element: the K-steps added in ascending order. -/
def dotElem (L : LFmt) (st : Nat) (acc : Word) (a b : List LVal) : Word × Flags :=
  let ps := a.zip b
  (List.range (ps.length / st)).foldl (fun (r : Word × Flags) q =>
    let x := stepSum L ((ps.drop (q * st)).take st)
    let y := faddOp F32 0 r.1.toNat x.1
    (BitVec.ofNat 32 y.1, r.2 ||| x.2 ||| y.2)) (acc, 0)

/-- A pass: its operands, its tile, its rows, and how it names itself in RP. -/
structure Pass where
  a : Desc
  base : Nat
  b : Desc
  td : Nat
  m : Nat
  n : Nat
  op : Nat
  group : Nat
  deriving DecidableEq, Repr

/-- RP after `rows` committed rows. -/
def Pass.rp (p : Pass) (rows : Nat) : Dword := rpWord p.op p.td p.group rows

/-- Row `i` committed (R152, R153). DESIGN CHOICE, log entry 71: an operand whose conversion flushes to zero adds LUNF to EFLG as it
adds IX (R83, R86). -/
def State.commitRow (s : State) (p : Pass) (i : Nat) (a : List LVal × Flags) (bs : List (List LVal × Flags)) : State :=
  let t := s.cur.bow.tile p.td
  let new := (bs.zip (List.range bs.length)).map (fun x => dotElem (mfLog p.a.mf) (mfStep p.a.mf) (t.at i x.2) a.1 x.1.1)
  let fl := a.2 ||| bs.foldl (fun f b => f ||| b.2) 0 ||| new.foldl (fun f x => f ||| x.2) 0
  ((s.setTile p.td (t.putRow i (new.map (fun x => x.1)))).addEflg fl).setRp (p.rp (i + 1))

/-- The stream is being saved: the workgroups of its launch on its cluster are (R168, R318). -/
def State.preempted (s : State) : Bool :=
  let gs := s.groups.filter (fun p => p.2.launch == s.cur.pl.launch && clusterOf p.2.core == clusterOf s.cur.pl.core
    && p.2.phase != .ended && p.2.phase != .saved)
  !gs.isEmpty && gs.all (fun p => p.2.phase == .saving)
/-- A pass of a stream that is being saved stops at a row commit of the hardware's choosing (R168, log entry 71). -/
def State.stopsAtRow (s : State) : Bool := s.preempted && Config.freeChoice s.fresh % 2 == 1

/-- The rows of a pass from a list of row numbers: none, or the failure, with RP at the row that was not committed
(R157). -/
def State.passRows (s : State) (p : Pass) (bs : List (List LVal × Flags)) : List Nat → Option MFail × State
  | [] => (none, s)
  | i :: rest =>
    if s.stopsAtRow then (some (.wait []), { s with fresh := s.fresh + 1 }.setRp (p.rp i))
    else match { s with fresh := s.fresh + 1 }.operandRow 0 p.a (p.base + i) with
    | (.error e, s) => (some e, s.setRp (p.rp i))
    | (.ok a, s) => (s.commitRow p i a bs).passRows p bs rest

/-- A pass from row `first` on. Its first row needs row `first` of A, then every row of B. -/
def State.runPass (s : State) (p : Pass) (first : Nat) : Option MFail × State :=
  if first ≥ p.m then (none, s)
  else match s.operandRow 0 p.a (p.base + first) with
    | (.error e, s) => (some e, s.setRp (p.rp first))
    | (.ok a, s) => match s.operandRows 1 p.b (List.range p.n) with
      | (.error e, s) => (some e, s.setRp (p.rp first))
      | (.ok bs, s) => (s.commitRow p first a bs).passRows p bs ((List.range (p.m - first - 1)).map (· + first + 1))

/-! ### Checks -/

/-- Class 10 with a reason of R165. -/
def engine (reason : Nat) : Cause := { cls := 10, reason := reason }

/-- The stop of a tile that is not F32 (R90, R152, R161). -/
def tileTrap (s : State) (t : Nat) : Option Cause :=
  let tag := (s.cur.bow.tile t).tag
  if tagCode tag = 15 then some { cls := 11 }
  else if tagCode tag = 3 then none
  else some { cls := 1, detail := tagDetail tag 3 }

/-- A canonical address, and a multiple of 16 (R150). -/
def addrOk (a : Dword) : Bool := canonical a && a.toNat % 16 == 0

/-- The descriptors of a pass, or the stop (R152): both set, formats not mixed, K equal. -/
def descPair (s : State) : Except (Cause × Nat) (Desc × Desc) :=
  match s.cur.bow.descA, s.cur.bow.descB with
  | none, _ => .error (engine 2, 0)
  | some _, none => .error (engine 2, 1)
  | some a, some b => if (a.mf = 0) ≠ (b.mf = 0) ∨ a.k ≠ b.k then .error (engine 2, 6) else .ok (a, b)

/-- The taken entry that a handle names on this stream's cluster (R144, R146). -/
def takenEntry (s : State) (h : Dword) : Option Nat :=
  let n := getBits h 0 4
  let e := s.entry (clusterOf s.cur.pl.core) n
  if !bit h 63 || getBits h 36 27 != 0 || getBits h 4 7 != 0 || e.st != .taken || e.gen != getBits h 28 8
      || e.launch != s.cur.pl.launch then none else some n

/-! ### Requests (R143, R144, R146) -/

/-- The handle of an entry (R144). -/
def handleOf (s : State) (n : Nat) (e : Entry) : Dword :=
  let p := ((s.hart? e.hart).getD Hart.idle).pl
  BitVec.ofNat 64 (2 ^ 63 + e.gen % 256 * 2 ^ 28 + e.pri % 8 * 2 ^ 25 + e.tok % 128 * 2 ^ 18 + p.slot % 32 * 2 ^ 13
    + p.core % 4 * 2 ^ 11 + n % 16)

/-- The entry that MTAKE chooses (R142, R143): of those POSTED when the clock began, the highest priority, then the oldest. -/
def State.chosen (s : State) : Option (Nat × Entry) :=
  leastBy (fun a b => ltNats [7 - a.2.pri, a.2.age] [7 - b.2.pri, b.2.age])
    ((s.cluster (clusterOf s.cur.pl.core)).entries.filter (fun p => p.2.st == .posted && p.2.launch == s.cur.pl.launch
      && p.2.since < s.clock))

/-- Drained() of R146. -/
def State.drained (s : State) : Bool :=
  let l := s.cur.pl.launch
  let streams := (s.allHarts.filter (fun h => h.role == .bowler && h.live && h.pl.launch == l)).length
  !(s.clusters.any (fun p => p.2.entries.any (fun e => e.2.st != .free && e.2.launch == l)))
    && (s.launch l).counter ≤ streams

/-- MTAKE (R146). -/
def execMtake (f : FMX) (s : State) : Out :=
  issue (.mtake f) f.g s (fun s =>
    match s.chosen with
    | some (n, e) =>
      let s' := s.setEntry (clusterOf s.cur.pl.core) n { e with st := .taken }
      retire (s'.mapRegs (fun r => (r.setS f.sa.toNat e.payload).setS f.sb.toNat (handleOf s n e)))
    | none =>
      if f.sub.getLsbD 0 || s.drained then retire (s.mapRegs (fun r => (r.setS f.sa.toNat 0).setS f.sb.toNat 0))
      else stall s)

/-- MDONE (R146, R163). -/
def execMdone (f : FMX) (s : State) : Out :=
  issue (.mdone f) f.g s (fun s =>
    match takenEntry s (s.cur.r.getS f.sa.toNat) with
    | none => trapAt (.mdone f) (engine 5) s
    | some n => match s.release .clus 0xF with
      | (false, s) => stall s
      | (true, s) =>
        retire (s.completeEntry (clusterOf s.cur.pl.core) n (putBits (s.cur.r.getS f.sb.toNat) 63 1 0)))

/-! ### Descriptors (R150) -/

/-- The descriptor that the operands give, where they keep the limits. -/
def descOf (f : FMX) (maxRows : Nat) (s : State) : Option Desc :=
  let a := s.cur.r.getS f.sa.toNat
  let st := s.cur.r.getS f.sb.toNat
  let c := s.cur.r.getS f.sc.toNat
  let k := getBits c 0 24
  let rows := getBits c 24 13
  if addrOk a && st.toNat % 16 == 0 && k % mfStep f.mf.toNat == 0 && k ≤ 16777184 && 1 ≤ rows && rows ≤ maxRows
      && getBits c 37 27 == 0
  then some { addr := a, stride := st, k := k, rows := rows, mf := f.mf.toNat, scale := f.imm.truncate 8 }
  else none

/-- MOPA (R150). -/
def execMopa (f : FMX) (s : State) : Out :=
  issue (.mopa f) f.g s (fun s =>
    match descOf f 4096 s with
    | none => trapAt (.mopa f) (engine 1) (s.mapBow (fun b => { b with descA := none })) 0
    | some d => retire (s.mapBow (fun b => { b with descA := some d })).clearRp)

/-- MOPB (R150). -/
def execMopb (f : FMX) (s : State) : Out :=
  issue (.mopb f) f.g s (fun s =>
    match descOf f 64 s with
    | none => trapAt (.mopb f) (engine 1) (s.mapBow (fun b => { b with descB := none })) 1
    | some d => retire (s.mapBow (fun b => { b with descB := some d })).clearRp)

/-! ### Passes (R152 to R157) -/

/-- MMA (R152). -/
def execMma (f : FMX) (s : State) : Out :=
  issue (.mma f) f.g s (fun s =>
    match descPair s with
    | .error (c, o) => trapAt (.mma f) c s o
    | .ok (a, b) =>
      if a.rows > 64 then trapAt (.mma f) (engine 3) s 0
      else match tileTrap s f.td.toNat with
        | some c => trapAt (.mma f) c s
        | none =>
          let rp := s.cur.bow.rp
          let first := if rpValid rp ∧ rpOp rp = 0 ∧ rpTd rp = f.td.toNat then rpRows rp else 0
          let p : Pass := { a := a, base := 0, b := b, td := f.td.toNat, m := a.rows, n := b.rows, op := 0, group := 0 }
          match s.runPass p first with
          | (some e, s) => engineStop (.mma f) e s
          | (none, s) => retire s.clearRp)

/-- An entry of the group table (R154). -/
structure MGroup where
  addr : Dword
  stride : Dword
  rows : Nat
  cols : Nat
  tile : Nat
  deriving DecidableEq, Repr

/-- An entry of 32 bytes, where it keeps the limits. -/
def mgroupOf (g : Group) (off : Nat) : Option MGroup :=
  let n := fun o k => memNat g.scratch (off + o) k
  let x : MGroup := { addr := BitVec.ofNat 64 (n 0 8), stride := BitVec.ofNat 64 (n 8 8), rows := n 16 2, cols := n 18 1,
                      tile := n 19 1 }
  if addrOk x.addr && x.stride.toNat % 16 == 0 && x.rows ≤ 64 && 1 ≤ x.cols && x.cols ≤ 64 && x.tile < 8 && n 20 8 == 0
      && n 28 4 == 0 then some x else none

/-- The table read: its groups, or the stop (R154, R157). DESIGN CHOICE, log entry 71: BTR2 of a poisoned entry is the word's
scratchpad offset, which has no virtual address. DESIGN CHOICE, log entry 85: R154 has no step for such an entry; it is reported
where step 4 reaches it, entry by entry, before a malformed fault of the same entry or a later one and before steps 5 and 6. -/
def mgroups (g : Group) (off : Nat) : List Nat → Except MFail (List MGroup)
  | [] => .ok []
  | k :: rest =>
    let o := off + 32 * k
    match g.scratchBad.find? (fun w => o ≤ w && w < o + 32) with
    | some w => .error { poison := true, kind := 0, va := BitVec.ofNat 64 w, opnd := 3 }
    | none => match mgroupOf g o with
      | none => .error { poison := false, kind := 0, va := 0, opnd := 3 }
      | some x => match mgroups g off rest with
        | .error e => .error e
        | .ok l => .ok (x :: l)

/-- The groups computed in order (R155): `gs` with their numbers and the rows of A before each. -/
def State.runGroups (s : State) (a b : Desc) (from_ first : Nat) : List (Nat × Nat × MGroup) → Option MFail × State
  | [] => (none, s)
  | (g, base, x) :: rest =>
    if g < from_ then s.runGroups a b from_ first rest
    else
      let p : Pass := { a := a, base := base, b := { b with addr := x.addr, stride := x.stride, rows := x.cols },
                        td := x.tile, m := x.rows, n := x.cols, op := 1, group := g }
      match s.runPass p (if g = from_ then first else 0) with
      | (some e, s) => (some e, s)
      | (none, s) => s.runGroups a b from_ first rest

/-- Every group with its number and the rows of A before it. -/
def placeGroups (l : List MGroup) : List (Nat × Nat × MGroup) :=
  (List.range l.length).filterMap (fun g => (l[g]?).map (fun x => (g, ((l.take g).map (fun y => y.rows)).sum, x)))

/-- The group and row at which MMAG begins (R155). -/
def resumePoint (rp : Dword) : Nat × Nat := if rpValid rp ∧ rpOp rp = 1 then (rpGroup rp, rpRows rp) else (0, 0)

/-- MMAG (R154, R155), its checks in the order of R154. -/
def execMmag (f : FMX) (s : State) : Out :=
  let i := Instr.mmag f
  issue i f.g s (fun s =>
    match takenEntry s (s.cur.r.getS f.sa.toNat) with
    | none => trapAt i (engine 5) s
    | some n => match descPair s with
      | .error (c, o) => trapAt i c s o
      | .ok (a, b) =>
        let e := s.entry (clusterOf s.cur.pl.core) n
        let g := s.group e.group
        let off := s.cur.r.getS f.sb.toNat
        let k := (s.cur.r.getS f.sc.toNat).toNat
        let rp := s.cur.bow.rp
        let start := resumePoint rp
        if !s.groupLives e.group || off.toNat % 32 != 0 || k > 64 || off.toNat + 32 * k > g.scratchSize
        then trapAt i (engine 4) s 3
        else match mgroups g off.toNat (List.range k) with
          | .error e =>
            if e.poison then trapAt i (e.cause 6) (s.setRp (rpWord 1 0 start.1 start.2)) 3 else trapAt i (engine 4) s 3
          | .ok l =>
            if (l.map (fun x => x.rows)).sum > a.rows then trapAt i (engine 3) s 3
            else match l.findSome? (fun x => if x.rows = 0 then none else tileTrap s x.tile) with
              | some c => trapAt i c s
              | none => match s.runGroups a b start.1 start.2 (placeGroups l) with
                | (some e, s) => engineStop i e s
                | (none, s) => retire s.clearRp)

/-! ### Tiles (R158 to R161) -/

/-- MZERO (R159). -/
def execMzero (f : FMX) (s : State) : Out :=
  issue (.mzero f) f.g s (fun s => retire (s.setTile f.td.toNat Tile.zero))

/-- The address, stride, rows and columns of a tile transfer, where they keep the limits (R160). -/
def shapeOf (f : FMX) (s : State) : Option (Dword × Dword × Nat × Nat) :=
  let a := s.cur.r.getS f.sa.toNat
  let st := s.cur.r.getS f.sb.toNat
  let c := s.cur.r.getS f.sc.toNat
  let rows := getBits c 0 7
  let cols := getBits c 8 7
  if addrOk a && st.toNat % 16 == 0 && 1 ≤ rows && rows ≤ 64 && 1 ≤ cols && cols ≤ 64 && getBits c 7 1 == 0
      && getBits c 15 49 == 0
  then some (a, st, rows, cols) else none

/-- The rows of MLDC: the codes of each, and whether a word was poisoned. -/
def State.tileRows (s : State) (a st : Dword) (cols size : Nat) : List Nat → Except MFail (List (List Nat) × Bool) × State
  | [] => (.ok ([], false), s)
  | i :: rest =>
    match s.engineWords 2 (wordsAt (a + BitVec.ofNat 64 i * st) (cols * size)) with
    | (.error e, s) => (.error e, s)
    | (.ok ws, s) => match s.tileRows a st cols size rest with
      | (.error e, s) => (.error e, s)
      | (.ok (l, bad), s) => (.ok (rowCodes ws cols size :: l, bad || ws.any (fun w => w.2.2)), s)

/-- An element of memory as F32 (R86, R160). -/
def toF32 (mf c : Nat) : Word := BitVec.ofNat 32 (if mf = 4 then c else (toLin F32 (fdecode (mfLin mf) c) 0).get.1)

/-- MLDC (R160). -/
def execMldc (f : FMX) (s : State) : Out :=
  issue (.mldc f) f.g s (fun s =>
    match shapeOf f s with
    | none => trapAt (.mldc f) (engine 1) s 2
    | some (a, st, rows, cols) =>
      match s.tileRows a st cols (mfSize f.mf.toNat) (List.range rows) with
      | (.error e, s) => engineStop (.mldc f) e s
      | (.ok (l, bad), s) =>
        let t := (l.foldl (fun (p : Nat × Tile) cs => (p.1 + 1, p.2.putRow p.1 (cs.map (toF32 f.mf.toNat)))) (0, Tile.zero)).2
        retire (s.setTile f.td.toNat { t with tag := if bad then poisonTag else f32Tag }))

/-- A word of a tile store: its address, its place and its bytes there. -/
structure TileWord where
  va : Dword
  at_ : Nat
  bytes : List Byte
  deriving DecidableEq, Repr

/-- One word of a tile store written. A pool word goes on to its device, which performs it (R193). -/
def State.engineWord (s : State) (x : (Dword × PWord) × TileWord) : State :=
  let s := s.writeWord s.me .clus false x.1 x.2.at_ x.2.bytes
  if x.1.2.kind = 2 then s.poolCwb s.me (s.nameOf x.1) else s

/-- The words of a tile store written in their order, up to the sector of the first that is refused (R161, R190). Nothing is written
while a word waits. -/
def State.engineWrite (s : State) (ws : List TileWord) : Option MFail × State :=
  let (xs, e, s) := s.engineXlat { write := true } 4 (ws.map (fun x => x.va))
  let ps := match e with
    | none => xs.zip ws
    | some f => (xs.zip ws).filter (fun x => x.1.1.toNat / 32 != f.va.toNat / 32)
  let ks := ps.map (fun x => s.nameOf x.1)
  if !(s.ownWaits s.me .clus ks).isEmpty then (some (.wait xs), s)
  else (e, (ps.foldl State.engineWord (s.ownSpans s.me .clus false false ks)).noteSpans s.me ks)

/-- The words of row `i` of a tile store. -/
def rowWords (a st : Dword) (i : Nat) (data : List Byte) : List TileWord :=
  let ea := a + BitVec.ofNat 64 i * st
  let was := wordsAt ea data.length
  ((List.range was.length).zip was).map (fun x =>
    let p := pieceOf ea data x.1
    { va := x.2, at_ := p.1, bytes := p.2 })

/-- Rows stored in ascending address order, so that sectors become visible in that order (R161, R190): with a negative stride the
last row comes first. DESIGN CHOICE, log entry 71: the same order where the rows overlap. -/
def State.engineRows (s : State) (a st : Dword) (rows : List (Nat × List Byte)) : Option MFail × State :=
  s.engineWrite ((if st.toInt < 0 then rows.reverse else rows).flatMap (fun r => rowWords a st r.1 r.2))

/-- MSTF and MSTL (R161): tag, shape, conversion and flags, stores, completion. -/
def tileStore (i : Instr) (f : FMX) (size : Nat) (conv : Nat → Narrow) (s : State) : Out :=
  issue i f.g s (fun s =>
    match tileTrap s f.ta.toNat with
    | some c => trapAt i c s
    | none => match shapeOf f s with
      | none => trapAt i (engine 1) s 4
      | some (a, st, rows, cols) =>
        let t := s.cur.bow.tile f.ta.toNat
        let rs := (List.range rows).map (fun r =>
          resolveSr ((List.range cols).map (fun j => (j, conv (t.at r j).toNat))))
        let fl := rs.foldl (fun acc r => r.foldl (fun acc x => acc ||| x.2.2) acc) (0 : Flags)
        if flgTraps s.cur.y.flg fl then trapAt i (arithCause fl) (s.addFlags fl)
        else match s.engineRows a st ((List.range rows).zip (rs.map (fun r => r.flatMap (fun x => leBytes size x.2.1)))) with
          | (some e, s) => match e.ask with
            | some ws => stall (s.askFor s.me true (s.ownWaits s.me .clus (ws.map s.nameOf)))
            | none => trapAt i (e.cause 7) s 4
          | (none, s) => retire (s.addFlags fl))

/-- MSTF (R161). -/
def execMstf (f : FMX) (s : State) : Out :=
  tileStore (.mstf f) f (mfSize f.mf.toNat)
    (fun c => if f.mf.toNat = 4 then .fixed c 0 else toLin (mfLin f.mf.toNat) (fdecode F32 c) f.rm.toNat) s

/-- MSTL (R161). -/
def execMstl (f : FMX) (s : State) : Out :=
  tileStore (.mstl f) f (mfSize f.mf.toNat)
    (fun c => linToLog (mfLog f.mf.toNat) (fdecode F32 c) (f.imm.truncate 8 : BitVec 8).toInt f.rm.toNat) s

/-- MPROG, read (R158). -/
def execMprogRead (f : FMX) (s : State) : Out :=
  issue (.mprogRead f) f.g s (fun s => retire (s.mapRegs (fun r => r.setS f.sa.toNat s.cur.bow.rp)))
/-- MPROG, set (R158). -/
def execMprogSet (f : FMX) (s : State) : Out :=
  issue (.mprogSet f) f.g s (fun s =>
    let x := s.cur.r.getS f.sb.toNat &&& rpMask
    retire (s.setRp (if rpOp x ≥ 2 ∨ rpRows x > 64 then putBits x 63 1 0 else x)))
/-- MPROG, clr (R158). -/
def execMprogClr (f : FMX) (s : State) : Out := issue (.mprogClr f) f.g s (fun s => retire s.clearRp)

/-- MTAGT, read (R159). -/
def execMtagtRead (f : FMX) (s : State) : Out :=
  issue (.mtagtRead f) f.g s (fun s =>
    retire (s.mapRegs (fun r => r.setS f.sa.toNat ((s.cur.bow.tile f.ta.toNat).tag.zeroExtend 64))))
/-- MTAGT, set (R159). -/
def execMtagtSet (f : FMX) (s : State) : Out :=
  issue (.mtagtSet f) f.g s (fun s =>
    let tag : BitVec 12 := (s.cur.r.getS f.sb.toNat).truncate 12
    let t := s.cur.bow.tile f.td.toNat
    if tagCode tag = 3 then retire (s.setTile f.td.toNat { t with tag := f32Tag })
    else if tagCode tag = 15 then retire (s.setTile f.td.toNat { t with tag := poisonTag })
    else trapAt (.mtagtSet f) { cls := 1, detail := tagDetail tag 0 } s)

/-! ### BCTL (R167) -/

/-- A command for the stopped stream of a cluster; without one it is ignored. -/
def State.bctl (s : State) (cluster : Nat) (f : State → State) : State :=
  match s.bowlerOf cluster with
  | some h => if h.bow.stopped then s.onHart h.id f else s
  | none => s

/-- The stopped stream goes on at a code address. -/
def State.bowlerGo (s : State) (pc : Dword) (arriving : Bool) : State :=
  (s.mapBow (fun b => { b with stopped := false })).mapCtl (fun c => { c with pc := pc, arriving := arriving })

/-- BCTL_RESUME: the trapping instruction again, or the one after TRAP or BRK. -/
def execBctlResume (cluster : Nat) (s : State) : Out :=
  .next (s.bctl cluster (fun s =>
    let cls := getBits (s.cluster cluster).btr0 0 4
    if cls = 12 ∨ cls = 13 then s.bowlerGo (nextPc s.cur.c.pc) false else s.bowlerGo s.cur.c.pc s.cur.c.arriving))

/-- BCTL_SKIP: the instruction after the trapping one. -/
def execBctlSkip (cluster : Nat) (s : State) : Out :=
  .next (s.bctl cluster (fun s => s.bowlerGo (nextPc s.cur.c.pc) false))

/-- BCTL_END: the stream ends. -/
def execBctlEnd (cluster : Nat) (s : State) : Out :=
  .next (s.bctl cluster (fun s => s.endBowler (endStatus 2)))

end Sys2Proof.Machine
end

