-- ==== Sys2Proof/Machine/System.lean ====
section
/-!
DEFINITION. Class 0xC: traps, the return from a handler, the supervisor's registers and workgroup operations (R354 to
R363), and the start of a save that SWAPB and the front end share (R316).
-/

namespace Sys2Proof.Machine

/-! ### Traps (R354, R355) -/

/-- TRAP (R354). -/
def execTrap (f : FX) (s : State) : Out :=
  issue (.trap f) f.g s (fun s => trapAt (.trap f) { cls := 12, reason := f.imm.toNat % 256 } s)

/-- BRK (R354). -/
def execBrk (f : FX) (s : State) : Out :=
  issue (.brk f) f.g s (fun s => trapAt (.brk f) { cls := 13, reason := f.imm.toNat % 256 } s)

/-- RFT (R355). -/
def execRft (f : FX) (s : State) : Out :=
  issue (.rft f) f.g s (fun s => .next (s.returnTrap (f.sub.getLsbD 0)))

/-! ### Supervisor access to the system registers (R356) -/

/-- SRRP. -/
def execSrrp (f : FX) (s : State) : Out :=
  issue (.srrp f) f.g s (fun s => retire (s.mapRegs (fun r => r.setS f.sd.toNat (s.sysGet (f.imm.toNat % 4096)))))

/-- SRWP. -/
def execSrwp (f : FX) (s : State) : Out :=
  issue (.srwp f) f.g s (fun s => retire (s.sysPutSuper (f.imm.toNat % 4096) (s.cur.r.getS f.sa.toNat)))

/-! ### Ending work (R357) -/

/-- The class and DETAIL that an error end reports (R353, R357). -/
def endCause (s : State) : Nat × Dword :=
  if tsInh s.cur.t.tstat then (tsClass s.cur.t.tstat, s.cur.t.tpc) else (12, s.cur.c.pc)

/-- Workgroups ended, after the event of an error end. -/
def endGroups (gs : List Nat) (err : Bool) (s : State) : Out :=
  let c := endCause s
  let s := if err then s.endEvent c.1 c.2 else s
  .next { gs.foldl (fun s g => s.endGroup g) s with picked := false }

/-- WGEND (R357). -/
def execWgend (f : FX) (s : State) : Out :=
  issue (.wgend f) f.g s (fun s =>
    match endGroups [s.cur.pl.group] (f.sub.getLsbD 0) s with
    | .next t => .next (if s.myGroup.seed then t else t.completeGang s.myGroup.gang)
    | o => o)

/-- GANGEND (R357): in the seed, which is alone, it acts as WGEND. -/
def execGangend (f : FX) (s : State) : Out :=
  issue (.gangend f) f.g s (fun s =>
    endGroups ((s.gang s.myGroup.gang).groups.filter (fun g => s.groupLives g)) (f.sub.getLsbD 0) s)

/-! ### The start of a save (R147, R316, R338, R358) -/

/-- The workgroups of a gang that are in a phase. -/
def State.gangIn (s : State) (g : Nat) (p : Phase) : List Nat := (s.gang g).groups.filter (fun x => (s.group x).phase == p)
/-- Wave slots of two workgroups on one core overlap. -/
def slotsMeet (a b : Group) : Bool := a.core == b.core && a.slot < b.slot + b.nwarps && b.slot < a.slot + a.nwarps
/-- The shadow copies of the regions of a core that depart together are free (R316): no region that still waits for its spill takes
one of their wave slots, and what these keep leaves room for them (log entry 19). -/
def State.shadowFree (s : State) (gs : List Nat) : Bool :=
  let mine := gs.map s.group
  let core := ((mine.head?).map (fun g => g.core)).getD 0
  let kept := (s.groups.filter (fun p => p.2.core == core && p.2.phase == .saving && !p.2.spilled)).map (fun p => p.2)
  mine.all (fun g => kept.all (fun k => !slotsMeet k g))
    && ((mine ++ kept).map (fun g => g.nwarps * g.regs)).foldl (· + ·) 0 ≤ 2048
    && ((mine ++ kept).map (fun g => g.scratchSize)).foldl (· + ·) 0 ≤ 262144

/-- The posted reservations of a workgroup, oldest first, taken out of the table into its context (R147). -/
def State.recordPosts (s : State) (g : Nat) : State :=
  let cl := clusterOf (s.group g).core
  let es := (s.cluster cl).entries.filter (fun p => p.2.st == .posted && p.2.group == g)
  let ord := (List.range es.length).foldl (fun (acc : List (Nat × Entry) × List (Nat × Entry)) _ =>
    match leastBy (fun a b => decide (a.2.age < b.2.age)) acc.2 with
    | none => acc
    | some e => (acc.1 ++ [e], acc.2.filter (fun x => x.1 != e.1))) ([], es)
  let recs := ord.1.map (fun p => ({ payload := p.2.payload, pri := p.2.req, tok := p.2.tok, hart := p.2.hart,
                                     opId := p.2.opId } : PostRec))
  let s := s.withdraw g
  s.setGroup g { s.group g with posts := recs ++ (s.group g).posts }

/-- A warp stopped by a save: it waits nowhere but at its barrier, and its records leave the core's queue (R316, R338). -/
def stopWarp (h : Hart) : Hart :=
  let h := keepRecords h
  { h with c := { h.c with napEnd := none,
                           wait := if keepsWait h then h.c.wait else none } }

/-- A workgroup stops and its region leaves the active bank. -/
def State.stopGroup (s : State) (g : Nat) : State :=
  let s := s.recordPosts g
  let s := s.mapHarts (fun h => if h.role == .warp && h.live && h.pl.group == g then stopWarp h else h)
  let x := s.group g
  let s := s.setGroup g { x with phase := .saving, swapDone := false, spilled := false }
  s.setCore x.core { s.core x.core with busyUntil := (s.core x.core).cclk + 49 }

/-- The regions of a gang on one core depart, where their shadow copies are free. An instruction of theirs that is issuing ends
first (R289). -/
def State.saveCore (s : State) (gang core : Nat) : State :=
  let gs := (s.gangIn gang .resident).filter (fun g => (s.group g).core == core)
  if !s.shadowFree gs then s
  else if s.picked && s.cur.role == .warp && gs.contains s.cur.pl.group then
    { s with gangs := s.gangs.put gang { s.gang gang with stopping := true } }
  else gs.foldl (fun s g => s.stopGroup g) s

/-- A gang's save (R316), core by core: it stays asked for while one of its regions has not departed. -/
def State.startSave (s : State) (gang : Nat) : State :=
  let s := { s with gangs := s.gangs.put gang { s.gang gang with stopping := false } }
  let s := (((s.gangIn gang .resident).map (fun g => (s.group g).core)).dedup).foldl (fun s c => s.saveCore gang c) s
  { s with gangs := s.gangs.put gang { s.gang gang with saveAsked := !(s.gangIn gang .resident).isEmpty } }

/-- The gangs whose save waits try again. -/
def State.retrySaves (s : State) : State := (s.gangs.filter (fun p => p.2.saveAsked)).foldl (fun s p => s.startSave p.1) s

/-- SWAPB (R358). -/
def execSwapb (f : FX) (s : State) : Out :=
  issue (.swapb f) f.g s (fun s =>
    match retire s with
    | .next t =>
      .next ((t.mapCtl (fun c => { c with wait := some { i := .swapb f, start := s.now, seen := s.now } })).startSave
        s.myGroup.gang)
    | o => o)

/-! ### Shootdowns (R314, R359) -/

/-- The addresses that XLATINV and PURGEV name: the first and the one past the last. -/
structure VRange where
  asid : BitVec 16
  lo : Nat
  hi : Nat
  whole : Bool
  all : Bool
  deriving DecidableEq, Repr

def FX.range (f : FX) (s : State) : VRange :=
  let a := (s.cur.r.getS f.sa.toNat).toNat
  let n := (s.cur.r.getS f.sb.toNat).toNat
  { asid := f.imm.truncate 16, lo := a / 65536 * 65536, hi := if n = 0 then a / 65536 * 65536 else a + n,
    whole := f.imm.getLsbD 16, all := f.imm.getLsbD 17 }

/-- Bytes `[base, base + size)` lie in the range. -/
def VRange.meets (r : VRange) (base size : Nat) : Bool := r.whole || (base < r.hi && r.lo < base + size)

/-- A shootdown: a start that is not canonical is ILLEGAL with reason 2, unless it is ignored. -/
def shootdown (i : Instr) (f : FX) (act : VRange → State → State) (s : State) : Out :=
  issue i f.g s (fun s =>
    let r := FX.range f s
    if !r.whole && !canonical (s.cur.r.getS f.sa.toNat) then trapAt i { cls := 0, reason := 2 } s
    else retire (act r s))

/-- The translations of the range, and the global ones in it, removed from every stack. -/
def State.dropXlat (s : State) (r : VRange) : State :=
  { s with tlb := s.tlb.filter (fun e => !((r.all || e.glob || e.asid == r.asid) && r.meets e.base e.size)) }

/-- XLATINV (R359). -/
def execXlatinv (f : FX) (s : State) : Out := shootdown (.xlatinv f) f (fun r s => s.dropXlat r) s

/-- The L1 and L2 copies of the range written home, oldest version first, and dropped. -/
def State.purgeOne (s : State) (r : VRange) : State :=
  let cs := s.copies.filter (fun (c : Copy) => c.node.level ≤ 1 && c.st != CohSt.i
    && (r.all || c.key.asid == r.asid.toNat) && r.meets c.key.va 4)
  match leastBy (fun (a b : Copy) => decide (a.ver < b.ver)) cs with
  | none => s
  | some c => s.evictL2 (if c.node.level = 0 then c.node.idx / 4 else c.node.idx) c.key
/-- The spans of the range leave every L1, L2 and engine buffer, and the fetch lines of it the instruction caches, with the
permissions that they held (R314). -/
def State.purge (s : State) (r : VRange) : State :=
  let s := (List.range s.copies.length).foldl (fun s _ => s.purgeOne r) s
  { s with held := s.held.filter (fun h => !((r.all || h.asid == r.asid.toNat) && r.meets h.va 4))
           dies := s.dies.map (fun (p : Nat × Die) => (p.1, { p.2 with icache := p.2.icache.filter (fun l =>
             !((r.all || l.asid == r.asid) && r.meets l.addr.toNat 64)) })) }

/-- PURGEV (R359). -/
def execPurgev (f : FX) (s : State) : Out := shootdown (.purgev f) f (fun r s => s.purge r) s

/-! ### Records of the workgroup's warps (R360) -/

/-- The warp that SFQPOP and SIDERD name: the executing one, or that of a wave slot of its workgroup. -/
def FX.warp (f : FX) (s : State) : Option Hart :=
  if f.sub.getLsbD 0 then
    (s.warpsOf s.cur.pl.group).find? (fun h => h.pl.slot == (s.cur.r.getS f.sa.toNat).toNat % 32)
  else some s.cur

/-- SFQPOP (R360). -/
def execSfqpop (f : FX) (s : State) : Out :=
  issue (.sfqpop f) f.g s (fun s =>
    let h := FX.warp f s
    let ws := match h.bind (fun h => h.m.sfrecs.head?) with
      | some r => r.words
      | none => [0, 0, 0, 0]
    let s := match h with
      | some h => s.updHart h.id (fun h => { h with m := { h.m with sfrecs := h.m.sfrecs.drop 1 } })
      | none => s
    retire (s.mapRegs (fun r => ((List.range 4).zip ws).foldl (fun r x => r.setS (f.sd.toNat + x.1) x.2) r)))

/-- SIDERD (R360). -/
def execSiderd (f : FX) (s : State) : Out :=
  issue (.siderd f) f.g s (fun s =>
    let x := match FX.warp f s with
      | some h => h.t.side.word (f.imm.toNat % 8)
      | none => 0
    retire (s.mapRegs (fun r => r.setS f.sd.toNat x)))

/-! ### HALTC (R361) -/

/-- The mask of a workgroup's halted warps. DESIGN CHOICE, log entry 91: those whose HALTED is 1, not siblings still in their skid. -/
def State.haltedMask (s : State) (g : Nat) : Dword :=
  (s.warpsOf g).foldl (fun acc h => if tskHalted h.t.tskid then acc ||| (1#64 <<< h.pl.widx) else acc) 0
/-- HALTC ends with the mask in Sd. -/
def haltcDone (f : FX) (s : State) : Out :=
  retire (s.mapRegs (fun r => r.setS f.sd.toNat (s.haltedMask s.cur.pl.group)))
/-- LEAD of the executing warp. -/
def State.setLead (s : State) (b : Bool) : State :=
  s.mapCur (fun h => { h with t := { h.t with tstat := putBits h.t.tstat 19 1 (bnat b) } })

/-- HALTC halt: a workgroup that is halted already keeps its lead. -/
def execHaltcHalt (f : FX) (s : State) : Out :=
  issue (.haltcHalt f) f.g s (fun s => haltcDone f (if s.myGroup.halt.isSome then s else s.haltGroup.setLead true))

/-- HALTC lift, by the warp that leads. -/
def execHaltcLift (f : FX) (s : State) : Out :=
  issue (.haltcLift f) f.g s (fun s =>
    haltcDone f (if s.myGroup.halt == some s.cur.id then (s.lift s.cur.pl.group).setLead false else s))

/-- The executing warp, halted, retires as at EXIT when its stores have ended and it holds no record. -/
def State.retireHalted (s : State) : State :=
  let g := s.cur.pl.group
  let s := s.drain
  if storesEnded s.cur && s.cur.m.sfrecs.isEmpty then s.retireWarp.settleBarriers g else s

/-- HALTC retire: a slot that holds no halted warp of the workgroup is left alone. It waits for the warp's stores, and a warp
with a store-fault record is left to its trap. -/
def execHaltcRetire (f : FX) (s : State) : Out :=
  issue (.haltcRetire f) f.g s (fun s =>
    let slot := (s.cur.r.getS f.sa.toNat).toNat % 32
    match (s.warpsOf s.cur.pl.group).find? (fun h => h.pl.slot == slot && tskHalted h.t.tskid) with
    | none => haltcDone f s
    | some h =>
      let t := s.onHart h.id State.retireHalted
      match t.hart? h.id with
      | some h' => if h'.live && h'.m.sfrecs.isEmpty && !storesEnded h' then stall t else haltcDone f t
      | none => haltcDone f t)

/-- EVPOST (R362): the event is handed to the arbiter, and the warp waits for its acceptance. -/
def execEvpost (f : FX) (s : State) : Out :=
  issue (.evpost f) f.g s (fun s =>
    match retire (s.raise (s.launchEvent s.cur.pl.launch 4 ((s.cur.r.getS f.sa.toNat).truncate 32 &&& 0x7FFFFFFF)
      (s.cur.r.getS f.sb.toNat)) (some s.cur.id)) with
    | .next t => .next (t.mapCtl (fun c => { c with wait := some { i := .evpost f, start := s.now, seen := s.now } }))
    | o => o)

end Sys2Proof.Machine
end

