-- ==== Sys2Proof/Machine/Fetch.lean ====
section
/-!
DEFINITION. What the sequencer does for the picked stream before an instruction executes (R28 to R34, R59, R284, R286): the
boundary, the fetch line, its checks, and the instruction or pair that it gives.
-/

namespace Sys2Proof.Machine

/-! ### Where a stream stands -/

/-- The workgroup of a stream is resident, and its die works. A Bowler stream runs unless it is stopped (R164). -/
def State.resident (s : State) (h : Hart) : Bool :=
  h.live && !(s.die (dieOf h.pl.core)).failed && (match h.role with
    | .warp => (s.group h.pl.group).phase == .resident
    | .bowler => !h.bow.stopped)

/-- A stream stopped by a halt of its workgroup: halted, or at the end of its skid (R333). -/
def haltedHere (h : Hart) : Bool := h.role == .warp && (tskHalted h.t.tskid || h.sch.skid == some 0)

/-- A stream that is not held by a halt, a barrier or a nap. -/
def State.free (s : State) (h : Hart) : Bool :=
  s.resident h && !haltedHere h && !h.c.arrivedBar && !h.c.arrivedGang
    && (match h.c.napEnd with
      | some t => s.clockOf h ≥ t
      | none => true)

/-- A stream at an instruction boundary, about to issue (R337). -/
def State.atBoundary (s : State) (h : Hart) : Bool := s.free h && h.c.wait.isNone

/-- The line that a stream would issue from, where its die holds it. -/
def State.lineOf (s : State) (h : Hart) : Option ILine :=
  (s.die (dieOf h.pl.core)).lineAt (s.asidOf h) (lineAddr h.c.pc)

/-! ### The fetch of the picked stream -/

/-- What the fetch gives: the step is over, an instruction, or a pair. -/
inductive Fetched where
  | done (s : State)
  | one (i : Instr) (s : State)
  | pair (w0 w1 : BitVec 96) (s : State)
  deriving DecidableEq, Repr

/-- The stream issues nothing now. -/
def unpick (s : State) : Fetched := .done { s with picked := false }

/-- A trap found at the sequencer: it waits for older loads that may still fault (R199). -/
def fetchTrap (c : Cause) (form : Nat × Nat) (s : State) : Fetched :=
  if settled s.cur then .done (s.takeTrap c form.1 form.2) else unpick s

/-- The kind of the executing stream's refused fetch of a line, where the fetch agent found `k`: that of the first check which fails
at the stream's privilege (R310). -/
def State.fetchKind (s : State) (line : Dword) (k : Nat) : Nat :=
  if !canonical line then k
  else match (s.translate (stackOf s.cur.pl.core) (s.asidOf s.cur) s.cur.c.priv { fetch := true } line).1 with
    | .error e => e
    | .ok _ => k

/-- The class 3 of a fetch that is refused (R286, R310). A Bowler stream's trap record names no address for it (R166). -/
def fetchRefused (kind : Nat) (s : State) : Fetched :=
  fetchTrap { cls := 3, kind := kind, va := match s.cur.role with
    | .warp => lineAddr s.cur.c.pc
    | .bowler => 0 } (0, 0) s

/-- The code address has the form of R33. -/
def pcOk (pc : Dword) : Bool := getBits pc 3 3 == 0 && slotOf pc ≤ 4

/-- A pair is named at a slot, and the skid of the stream's halt has room for one instruction only (R333). -/
def pairTooLong (h : Hart) (l : BitVec 512) (k : Nat) : Bool := (linePairs l).contains k && h.sch.skid == some 1

/-- The stream stops, halted, at its slot (R333). -/
def State.haltHere (s : State) : State :=
  { s with picked := false
           cur := { s.cur with t := { s.cur.t with tskid := putBits s.cur.t.tskid 0 1 1 }, sch := { s.cur.sch with skid := some 0 } } }

/-- The slot of a line that passed its checks. The line's slot field may be above 4 only where no arrival is checked (R34): a
return or a resumption to such an address goes on with the next line (DESIGN CHOICE, log entry 46). A pair of two of the
skipped NOPs is skipped with them (DESIGN CHOICE, log entry 66). -/
def State.fetchSlot (s : State) (l : BitVec 512) : Fetched :=
  let pc := s.cur.c.pc
  let k := slotOf pc
  let w := slotWord l k
  if lineMalformed l then fetchTrap { cls := 0, reason := 8 } (wordForm w) s
  else if s.cur.c.arriving && (!pcOk pc || !lineTgt l k) then fetchTrap { cls := 8 } (wordForm w) s
  else if k > 4 then .done (s.mapCtl (fun c => { c with pc := lineAddr pc + 64 }))
  else if pairTooLong s.cur l k && !restNop l k then .done s.haltHere
  else if restNop l k then .done (s.mapCtl (fun c => { c with pc := lineAddr pc + 64, arriving := false }))
  else if (linePairs l).contains k then .pair w (slotWord l (k + 1)) s
  else match decode w with
    | .error r => fetchTrap { cls := 0, reason := r.code } (wordForm w) s
    | .ok i => .one i s

/-- A line that fails its parity check is fetched once more (R30). -/
def State.fetchAgain (s : State) (l : ILine) : Fetched :=
  let core := s.cur.pl.core
  let held := s.fetchWaits core l.asid l.addr
  if !held.isEmpty then unpick (s.askFor (dieIssuer core) false held)
  else match s.fetchLine core l.asid l.addr with
  | (.error k, s) => fetchRefused (s.fetchKind l.addr k) s
  | (.ok x, s) =>
    let d := (s.die (dieOf core)).putLine x
    if lineParityOk x.data then (s.setDie (dieOf core) { d with soft := d.soft + 1 }).fetchSlot x.data
    else fetchTrap (s.badCause (s.fetchSite core l.asid l.addr)) (0, 0) (s.setDie (dieOf core) d)

/-- The fetch of the picked stream: its boundary, then its line. -/
def State.fetch (s : State) : Fetched :=
  let h := s.cur
  if !s.resident h then unpick s
  else if haltedHere h then
    .done s.haltHere
  else if !s.free h then unpick s
  else
    let s := s.mapCtl (fun c => { c with napEnd := none })
    match (if s.atBoundary h then s.boundaryTrap else none) with
    | some t => if settled s.cur then .done t else unpick s
    | none => match s.lineOf h with
      | none => unpick s
      | some l =>
        if h.c.priv = false ∧ l.user = false then fetchRefused kPRIV s
        else if lineParityOk l.data then s.fetchSlot l.data
        else s.fetchAgain l

end Sys2Proof.Machine
end

