-- ==== Sys2Proof/Machine/Issue.lean ====
section
/-!
DEFINITION. Issue (R284, R285), the core clock, the fill of a missing line (R286, R287), the end of a nap (R302) and the
traps taken at a boundary (R231, R337).
-/

namespace Sys2Proof.Machine

/-! ### Readiness (R284) -/

/-- A waiting instruction ends when its body is run on the executing stream. -/
def bodyEnds (o : Out) : Bool :=
  match o with
  | .next t => t.cur.c.wait.isNone
  | _ => true

/-- A stream that waits in an instruction would go on. WAITA, TKWAIT, ARRW, WRSYNC, MPOST and SWAPB end by their events. -/
def State.waitOver (s : State) (h : Hart) : Bool :=
  match h.c.wait with
  | none => true
  | some w => match w.i with
    | .waitc f => bodyEnds (waitcBody f (s.focus h.id))
    | .drainst f => bodyEnds (drainstBody f (s.focus h.id))
    | .waitb f => bodyEnds (waitbBody f (s.focus h.id))
    | .lst f => bodyEnds (publishBody (.lst f) w.v (s.focus h.id))
    | .latom f => bodyEnds (publishBody (.latom f) w.v (s.focus h.id))
    | _ => false

/-- One instruction finds its registers full and the limits of R198 met; an empty mask needs no registers. -/
def instrReady (h : Hart) (w : BitVec 96) : Bool :=
  match decode w with
  | .error _ => true
  | .ok i => !loadWait i h && (laneMask h (guardOfWord i) == 0 || emptyTrap (uses i) h.r || !emptyWait (uses i) h.r)

/-- The words of a pair have no reason to wait (R59). -/
def pairReady (h : Hart) (w0 w1 : BitVec 96) : Bool :=
  let one := fun w => match decode w with
    | .error _ => true
    | .ok i => !loadWait i h && (laneMask h (guardOfWord i) == 0 || !blockWait (uses i) h.r)
  one w0 && one w1

/-- The stream's next instruction is an MPOST that the reservation table holds back (R141, R284): what it leaves when it
reaches the table. -/
def State.postHeld (s : State) (h : Hart) (w : BitVec 96) : Option State :=
  match decode w with
  | .ok (.mpost f) =>
    match execMpost f (s.focus h.id) with
    | .next t => if t.cur.c.wait.isSome then some (t.focus s.cur.id) else none
    | _ => none
  | _ => none

/-- The next instruction or pair of a stream has no reason to wait at issue, the reservation table apart. -/
def State.nearlyReady (s : State) (h : Hart) : Bool :=
  s.free h && s.waitOver h && (match s.lineOf h with
    | none => false
    | some l =>
      let k := slotOf h.c.pc
      (h.c.wait.isNone && (s.focus h.id).boundaryTrap.isSome) || !pcOk h.c.pc
        || (if (linePairs l.data).contains k then pairReady h (slotWord l.data k) (slotWord l.data (k + 1))
            else instrReady h (slotWord l.data k)))

/-- The post that a stream without another reason to wait has at a full table. -/
def State.reaches (s : State) (h : Hart) : Option State :=
  if !(s.atBoundary h && s.nearlyReady h) || (s.focus h.id).boundaryTrap.isSome || !pcOk h.c.pc then none
  else match s.lineOf h with
    | none => none
    | some l =>
      let k := slotOf h.c.pc
      if !lineParityOk l.data || lineMalformed l.data || (h.c.arriving && !lineTgt l.data k) then none
      else s.postHeld h (slotWord l.data k)

/-- The next instruction or pair of a stream has no reason to wait at issue (R284). -/
def State.ready (s : State) (h : Hart) : Bool := s.nearlyReady h && (s.reaches h).isNone

/-- The posts that a unit's streams have reached the table with wait there from now on (R141). -/
def State.reachTable (s : State) (hs : List Hart) : State :=
  hs.foldl (fun s h => match s.hart? h.id with
    | none => s
    | some h => (s.reaches h).getD s) s

/-- The line that a stream waits for: it could issue, and its die does not hold it. -/
def State.missing (s : State) (h : Hart) : Option Dword :=
  if s.atBoundary h && (s.lineOf h).isNone then some (lineAddr h.c.pc) else none

/-! ### The clock -/

/-- Each sequencer that has missed its line is counted once in SLIPS (R287). A Bowler counts for core 0 of its cluster. -/
def State.countMisses (s : State) : State :=
  s.allHarts.foldl (fun s h =>
    let now := s.missing h
    if now == h.c.missed then s
    else
      let s := s.updHart h.id (fun x => { x with c := { x.c with missed := now } })
      if now.isNone then s
      else
        let x := (s.core h.pl.core).slipc
        s.setCore h.pl.core { s.core h.pl.core with slipc := putBits x 0 32 (getBits x 0 32 + 1) }) s

/-- A sequencer of a role at a core is frozen on a miss. -/
def State.frozenAt (s : State) (role : Role) (c : Nat) : Bool :=
  s.allHarts.any (fun h => h.role == role && h.pl.core == c && (s.missing h).isSome)
/-- FROZEN of SLIPC one higher. -/
def frozenMore (slipc : Dword) : Dword := putBits slipc 32 32 (min (getBits slipc 32 32 + 1) (2 ^ 32 - 1))

/-- A queue with a time slice has a resident workgroup that no pinned gang holds (R288). -/
def State.slicing (s : State) (q : Nat) : Bool :=
  getBits (s.queue q).qcfg 0 32 != 0
    && s.groups.any (fun p => p.2.phase == .resident && !p.2.pinned && (s.launch p.2.launch).queue == q)

/-- When an item of a pending list was accepted, or saved. -/
def Pending.born : Pending → Nat
  | .range _ _ _ _ born => born
  | .saved _ born => born

/-- A launch's oldest pending gang, the first of its list: what names it, and the age that R281 goes by, that of the oldest item
(DESIGN CHOICE, log entry 88: a saved gang at the head of the list may have been born after those behind it). -/
def Launch.oldest (x : Launch) : Option (List Nat × Nat) :=
  if x.complete then none
  else if !x.seedPlaced then some ([0], x.since)
  else match x.pending with
    | [] => none
    | y :: rest =>
      let age := rest.foldl (fun n z => min n z.born) y.born
      match y with
      | .range first n _ _ born => some ([1, first, n, born], age)
      | .saved g born => some ([2, g, born], age)

/-- The launches with pending work in the order in which R281 takes them, as keys that end in the launch. -/
def State.pendingKeys (s : State) : List (List Nat) :=
  s.launches.filterMap (fun p => p.2.oldest.map (fun x => [7 - p.2.pri, x.2, p.1]))
/-- The launch of the oldest pending gang at the highest priority present. -/
def State.oldestLaunch (s : State) : Option Nat := (leastBy ltNats s.pendingKeys).bind (fun k => k.getLast?)

/-- What names the oldest pending gang at the highest priority present, after its launch. -/
def State.oldestName (s : State) : List Nat :=
  match s.oldestLaunch with
  | none => []
  | some l => l :: (((s.launch l).oldest.map (fun x => x.1)).getD [])

/-- The front end notes when a gang becomes the oldest (R282). -/
def State.noteOldest (s : State) : State :=
  let now := s.oldestName
  if now == s.fe.oldest then s else { s with fe := { s.fe with oldest := now, oldestAt := s.clock } }

/-- One clock of the package: the saves that wait (R316), the misses (R287), the age of pending gangs, time slices, the gang barriers
that the end of a workgroup completed (R297), and the event arbiter's turn for the clock that is over (R280). DESIGN CHOICE, log
entry 4: R292 gives the package no clock; a queue's slice (R288) counts these. -/
def State.tick (s : State) : State :=
  let s := s.gangs.foldl (fun s p => s.completeGang p.1) s.retrySaves
  let s := s.countMisses.noteOldest
  let s := (s.queues.map (fun p => p.1)).foldl (fun s q =>
    if s.slicing q then s.setQueue q { s.queue q with slice := (s.queue q).slice + 1 } else s) s
  State.arbiterTurn { s with clock := s.clock + 1 }

/-! ### The pick (R285) -/

/-- The priority class of a warp: 7 in a pinned gang (R290). -/
def State.classOfWarp (s : State) (h : Hart) : Nat :=
  if (s.group h.pl.group).pinned then 7 else (s.launch h.pl.launch).pri

/-- The order in which R285 takes ready warps, the first the least: starved warps by age, then priority, then the least
recently picked, then creation and slot. -/
def State.pickKey (s : State) (h : Hart) : List Nat :=
  if h.sch.unpicked ≥ 64 then [0, 2 ^ 64 - h.sch.unpicked, h.sch.created, h.pl.slot]
  else
    let last := match h.sch.lastPick with
      | some t => t + 1
      | none => 0
    [1, 7 - s.classOfWarp h, last, h.sch.created, h.pl.slot]

/-- The streams that an issue unit serves. -/
def servedBy (u : IssueUnit) (h : Hart) : Bool :=
  match u with
  | .sched c k => h.role == .warp && h.pl.core == c && h.pl.slot % 2 == k % 2
  | .bowler cl => h.role == .bowler && clusterOf h.pl.core == cl

/-- The core of a unit issues: it is not exchanging banks (R316). -/
def State.unitOpen (s : State) (u : IssueUnit) : Bool :=
  match u with
  | .sched c _ => (s.core c).cclk ≥ (s.core c).busyUntil
  | .bowler _ => true

/-- The issue opportunity of a unit (R284, R292): a core's clock passes when a scheduler has a second one in it, and a
Bowler's with each. FROZEN rises in a clock of the core in which a sequencer of it is frozen; a Bowler's, in a clock of its own,
counts for core 0 of its cluster while no warp is frozen there (R287). -/
def State.unitClock (s : State) (u : IssueUnit) : State :=
  match u with
  | .sched c k =>
    let x := s.core c
    let b : BitVec 2 := if k % 2 = 0 then 1 else 2
    if x.turn &&& b = 0 then s.setCore c { x with turn := x.turn ||| b }
    else s.setCore c { x with
      turn := b, cclk := x.cclk + 1, began := s.clock, post := none, enq := none
      slipc := if s.frozenAt .warp c then frozenMore x.slipc else x.slipc }
  | .bowler cl =>
    let c := 4 * cl
    let t := s.setCluster cl { s.cluster cl with cclk := (s.cluster cl).cclk + 1 }
    if s.frozenAt .bowler c && !s.frozenAt .warp c then t.setCore c { s.core c with slipc := frozenMore (s.core c).slipc } else t

/-- A served stream is picked, or passed over; one that is not ready starts to count anew. -/
def passOver (chosen : Nat) (ready : List Nat) (clock : Nat) (h : Hart) : Hart :=
  if h.id = chosen then { h with sch := { h.sch with unpicked := 0, lastPick := some clock } }
  else { h with sch := { h.sch with unpicked := if ready.contains h.id then h.sch.unpicked + 1 else 0 } }

/-- The words that a stream issues next, where its die holds their line. -/
def State.nextWords (s : State) (h : Hart) : List (BitVec 96) :=
  match s.lineOf h with
  | none => []
  | some l =>
    let k := slotOf h.c.pc
    slotWord l.data k :: (if (linePairs l.data).contains k then [slotWord l.data (k + 1)] else [])

/-- The words read a register that holds the status of a matrix request. -/
def readsToken (r : Regs) (ws : List (BitVec 96)) : Bool :=
  ws.any (fun w => match decode w with
    | .error _ => false
    | .ok i => (uses i).ss.any (fun x => r.acq.contains x.1))

/-- The acquire at cluster scope that a poster's read of its full token makes (R163), made as the stream is picked for the
instruction that reads it (log entry 70). -/
def State.tokenReads (s : State) : State :=
  if readsToken s.cur.r (s.nextWords s.cur) then s.acquire s.me 1 else s

/-- ISSUE_PICK (R285): the unit has an issue opportunity, and the unit picks one of its ready streams. -/
def execIssuePick (u : IssueUnit) (s : State) : Out :=
  .next (if !s.powered then s
    else
      let s := { (s.tick.unitClock u) with picked := false }
      if !s.unitOpen u then s
      else
        let s := s.reachTable (s.allHarts.filter (fun h => servedBy u h))
        let rs := s.allHarts.filter (fun h => servedBy u h && s.ready h)
        match leastBy (fun a b => ltNats (s.pickKey a) (s.pickKey b)) rs with
        | none => s
        | some h =>
          let ids := rs.map (fun h => h.id)
          let t := (s.mapHarts (fun x => if servedBy u x then passOver h.id ids s.clock x else x)).focus h.id
          { t.tokenReads with picked := true })

/-! ### Fills, naps and boundary traps -/

/-- The streams of a die that wait for a line, in slot order. -/
def State.waitingLine (s : State) (die : Nat) (asid : BitVec 16) (line : Dword) : List Hart :=
  let hs := s.allHarts.filter (fun h => dieOf h.pl.core == die && s.asidOf h == asid && s.missing h == some line)
  (List.range 32).flatMap (fun k => hs.filter (fun h => h.pl.slot == k))

/-- IFETCH_FILL (R286, R287): a missing line is fetched for the streams of its die that wait for it, or else one that PFH asked
for (R302). One that does not translate raises class 3 at each of them. -/
def execIfetchFill (die : Nat) (asid : BitVec 16) (line : Dword) (s : State) : Out :=
  .next (match s.waitingLine die asid line with
    | [] => s.fetchAhead die asid line
    | h :: rest =>
      let hs := h :: rest
      let s := s.countMisses
      let held := s.fetchWaits h.pl.core asid line
      if !held.isEmpty then s.askFor (dieIssuer h.pl.core) false held
      else match s.fetchLine h.pl.core asid line with
      | (.ok x, s) => s.setDie die ((s.die die).putLine x)
      | (.error k, s) => hs.foldl (fun s h => s.onHart h.id (fun s =>
          if !s.atBoundary s.cur then s
          else match fetchRefused (s.fetchKind line k) s with
            | .done t => t
            | _ => s)) s)

/-- NAP_EXPIRY (R302). -/
def execNapExpiry (h : Nat) (s : State) : Out :=
  .next (s.updHart h (fun x => match x.c.napEnd with
    | some t => if s.clockOf x ≥ t then { x with c := { x.c with napEnd := none } } else x
    | none => x))

/-- The trap of class `c` that a stream takes at its boundary, where that is its next act. -/
def State.takeBoundary (s : State) (id c : Nat) : State :=
  s.onLive id (fun s =>
    if s.atBoundary s.cur && settled s.cur then
      (match s.boundaryTrap with
      | some t => if tsClass t.cur.t.tstat = c then t else s
      | none => s)
    else s)

/-- PENDING_STORE_FAULT_TRAP (R337). -/
def execPendingStoreFaultTrap (h : Nat) (s : State) : Out := .next (s.takeBoundary h 4)

/-- COMMAND_FAILURE_TRAP (R231). -/
def execCommandFailureTrap (h : Nat) (s : State) : Out := .next (s.takeBoundary h 10)

end Sys2Proof.Machine
end

