-- ==== Sys2Proof/Machine/CohEvents.lean ====
section
/-!
DEFINITION. The coherence tree's own events (R181, R183), and the requests that reach a home slice from outside the package:
a peer's KIND 1 accesses (R24, R191), remote atomics (R192, R212) and the host's RDMA (R23). A request that has to wait for a
word (R191, R192, R342, R351) changes nothing but what it asks for, and is made again.
-/

namespace Sys2Proof.Machine

/-- A core under a node whose chain holds the node's dirty data for a word: the issuer that a push starts from. -/
def State.pusher (s : State) (n : Node) (k : WKey) : Issuer :=
  let es := (s.dataUnder n k).filter (fun c => isDirty c.st)
  match newest es with
  | some c => { core := c.node.idx * nodeSpan c.node.level, lvl := c.node.level }
  | none => { core := n.idx * nodeSpan n.level, lvl := min n.level 1 }

/-- PUSH (R181, R183): a node that holds a word in W has its parent record it, and from the package directory its home. The
nodes of the chain below it are pushed first. A write at the home waits for the rebuild of its word (R342). -/
def execPush (n : Node) (w : WKey) (s : State) : Out :=
  .next (if (s.copyAt n w).st == .w && n.level ≤ 5 then
      let i := s.pusher n w
      if n.level = 5 && s.poisonWaits w.pw then s.askRebuild (some i.core) w.pw
      else s.performWord i (n.level + 1) (s.fullName i w)
    else s)

/-- INV (R181): every copy of a word in a node's subtree is dropped. Dirty data goes where an eviction takes it: no OWN of
this step asks for it. -/
def execInv (n : Node) (w : WKey) (s : State) : Out := .next (s.evictWord n w)

/-- EVICTION (R181). -/
def execEviction (n : Node) (w : WKey) (s : State) : Out :=
  .next (if (s.copyAt n w).st == .i then s else s.evictWord n w)

/-! ### Requests at a home slice -/

/-- A word of this package's HBM. -/
def hbmWord (off : Nat) : PWord := { kind := 0, peer := 0, off := off / 4 * 4 }
/-- The words of this package's HBM that `n` bytes at `off` touch. -/
def hbmWords (off n : Nat) : List PWord :=
  (List.range ((off % 4 + n + 3) / 4)).map (fun j => hbmWord (off / 4 * 4 + 4 * j))

/-- A package may reach `n` bytes of local HBM: it is another one of the pod, and not departed (R191). -/
def State.peerMay (s : State) (pkg off n : Nat) : Bool :=
  pkg != s.pkg.toNat && pkg ≤ s.podn.toNat && !(s.peer pkg).departed && off + n ≤ 2 ^ 39

/-- A read at the home waits for what R342 and R351 name. -/
def State.homeReadWaits (s : State) (ws : List PWord) : Bool := ws.any (fun w => s.deadHolds w || s.poisonWaits w)
/-- A write at the home waits also for its turn (R192), and an ownership request for the line's sharers (R191). -/
def State.homeWriteWaits (s : State) (rank : Nat) (own : Bool) (ws : List PWord) : Bool :=
  s.homeReadWaits ws || ws.any (s.homeLate rank) || (own && ws.any (fun w => !(s.sharersOf w).isEmpty))
/-- What a waiting request asks for. -/
def State.homeAsk (s : State) (own : Bool) (ws : List PWord) : State := ws.foldl (fun s w => s.askWord none own w) s

/-- RD by a peer (R24, R181): a system-scope read at the home, which records the package as a sharer of the line (R191). -/
def State.peerRead (s : State) (pkg off : Nat) : State :=
  let w := hbmWord off
  if !s.peerMay pkg off 4 then s
  else if s.homeReadWaits [w] then s.homeAsk false [w]
  else
    let (x, bad) := s.homeWord w
    let s := match s.homeOwner w with
      | some c => s.supplied 6 c
      | none => s
    (s.setSharer w.off pkg true).send (.data pkg w.off x bad)

/-- OWN by a peer with a store (R24, R191): the home recalls its own package's copies and those of the other sharers, performs the
bytes, and answers with the words. -/
def State.peerOwn (s : State) (pkg port off : Nat) (bytes : List Byte) : State :=
  let ws := hbmWords off bytes.length
  if !s.peerMay pkg off bytes.length then s
  else if s.homeWriteWaits (fabricRank port) true ws then s.homeAsk true ws
  else
    let s := ws.foldl (fun s w => (s.recall w).homeServes (fabricRank port) w) s
    ws.foldl (fun s w => (s.setSharer w.off pkg true).send (.data pkg w.off (s.homeWord w).1 (s.homeWord w).2)) (s.hbmPut off bytes)

/-- RD (R181): returning access number `k` of a stream is confirmed, or a peer reads byte offset `k`. -/
def execRd (a : Reader) (k : Nat) (s : State) : Out :=
  .next (match a with
    | .hart h => s.onLive h (fun s => s.rdRet k)
    | .peer pkg _ => s.peerRead pkg k)

/-- OWN (R181): a pending store of a stream is performed or its fault is found, or a peer stores `bytes`. -/
def execOwn (a : Asker) (bytes : List Byte) (s : State) : Out :=
  .next (match a with
    | .hart h k => s.onAny h (fun s => s.performStore k)
    | .peer pkg port off => s.peerOwn pkg port off bytes)

/-- The new value of a remote atomic, none where a compare-and-swap fails. -/
def atomReqNew (r : AtomReq) (old : Nat) : Option Nat :=
  let w := if r.wide then 64 else 32
  if r.op = 15 then (if old = r.x.toNat % 2 ^ w then some (r.y.toNat % 2 ^ w) else none)
  else if r.op < 16 then some (atomNew (r.op % 8) w (decide (8 ≤ r.op)) old r.x.toNat)
  else some (fatomWord (BitVec.ofNat 4 (r.op / 8 + 1)) (r.op % 8) (BitVec.ofNat 32 old) (r.x.truncate 32)).toNat

/-- A remote atomic that finds words uncorrectable: a record, their rebuild on protected pages, and poison in return (R212). -/
def State.atomReqPoison (s : State) (r : AtomReq) (bad : List PWord) : State :=
  let s := s.logError { sites := bad.map .word, addr := ((bad.head?.map (fun w => w.off)).getD r.off), source := 0, action := 0,
                        unit := homeUnit r.off, req := BitVec.ofNat 64 (r.pkg % 16 * 2 ^ 16) }
  (bad.foldl (fun s w => s.askRebuild none w) s).send (.reply r.pkg 0 true)

/-- REMOTE_ATOMIC (R212): the home recalls ownership and its atomic unit updates the word. An uncorrectable word is left, and
poison returned. A departed package has no access (R191). -/
def execRemoteAtomic (r : AtomReq) (s : State) : Out :=
  let ws := hbmWords r.off (if r.wide then 8 else 4)
  let rank := fabricRank r.port
  .next (if !s.peerMay r.pkg r.off 8 || r.off % (if r.wide then 8 else 4) != 0 then s
    else if ws.any (fun w => s.deadHolds w || s.homeLate rank w || s.poisonWaits w true
      || (s.poisonWaits w && !(s.dirtyUnder pkgNode (physName w)).isEmpty) || !(s.sharersOf w).isEmpty) then s.homeAsk true ws
    else
      let s := ws.foldl (fun s w => (s.recall w).homeServes rank w) s
      let bad := ws.filter (fun w => (s.homeWord w).2)
      if !bad.isEmpty then s.atomReqPoison r bad
      else
        let old := wordsNat (ws.map (fun w => s.homeWord w))
        let s := match atomReqNew r old with
          | none => s
          | some new => ((List.range ws.length).zip ws).foldl (fun (s : State) (x : Nat × PWord) =>
              s.homeWrite x.2 (fun _ => BitVec.ofNat 32 (new / 2 ^ (32 * x.1))) true) s
        s.send (.reply r.pkg (BitVec.ofNat 64 old) false))

/-- The host becomes the last user of a line that is a synchronisation line already (R185). -/
def State.hostRecord (s : State) (pw : PWord) : State :=
  if s.isSyncLine (physName pw) then s.setRecs [homeNode] (physName pw) .host .sys else s

/-- Bytes written at their home slices by an Ethernet port, in ascending order (R23, R192). -/
def State.hostWrite (s : State) (port pa : Nat) (bytes : List Byte) : State :=
  let ws := hbmWords pa bytes.length
  if pa + bytes.length > 2 ^ 39 then s
  else if s.homeWriteWaits (hostRank port) false ws then s.homeAsk false ws
  else (ws.foldl (fun s w => (s.hostRecord w).homeServes (hostRank port) w) s).hbmPut pa bytes

/-- Bytes of a pool device or of a peer's HBM that a party there writes, word by word (log entry 17). -/
def State.outsidePut (s : State) (kind peer off : Nat) (bytes : List Byte) : State :=
  (List.range ((off % 4 + bytes.length + 3) / 4)).foldl (fun s j =>
    let p := pieceOf (BitVec.ofNat 64 off) bytes j
    let pw : PWord := { kind := kind, peer := peer, off := off / 4 * 4 + 4 * j }
    let (v, s) := s.newVer
    { s with mem := memPutWord s.mem (pwKey pw) (setBytes (memWord s.mem (pwKey pw)) p.1 p.2)
             memBad := if p.2.length ≥ 4 then dropNat s.memBad (pwKey pw) else s.memBad
             homeVer := s.homeVer.put (pwKey pw) v
             parity := { s.parity with safe := s.parity.safe.filter (fun x => x.key != pwKey pw) } }) s

/-- Part `k` of a slot changed. -/
def Image.setPart (x : Image) (k : Nat) (f : Part → Part) : Image :=
  let ps := (List.range 3).map (fun j => (x.parts[j]?).getD { code := [], key := [], sig := [], secver := 0 })
  { x with parts := (List.range 3).map (fun j => if j = k then f (ps.getD j { code := [], key := [], sig := [], secver := 0 })
                                                 else ps.getD j { code := [], key := [], sig := [], secver := 0 }) }
/-- A part of a slot written. -/
def Image.write (x : Image) (p : FlashPart) (bs : List Byte) : Image :=
  match p with
  | .code k => x.setPart k (fun y => { y with code := bs })
  | .key k => x.setPart k (fun y => { y with key := bs })
  | .sig k => x.setPart k (fun y => { y with sig := bs })
  | .secver k => x.setPart k (fun y => { y with secver := leNat bs })
  | .ctxVer => { x with ctxVer := leNat bs % 256 }
  | .accepts => { x with accepts := bs.map (fun b => b.toNat) }
/-- Firmware writes a slot of the firmware store (R328, R329): the running image the inactive slot, and the golden firmware slot A
or B. -/
def State.flashPut (s : State) (slot : Nat) (p : FlashPart) (bs : List Byte) : State :=
  let c := s.crown
  let may := (c.state == 1 && slot == c.inactive) || (c.state == 4 && (slot == 1 || slot == 2))
  if !s.powered || !may then s
  else if slot = 1 then { s with crown := { c with slotA := c.slotA.write p bs } }
  else { s with crown := { c with slotB := c.slotB.write p bs } }

/-- HOST_RDMA_WRITE (R23): the host writes local HBM, or a party outside the package memory that it does not hold: the host's own,
where the command rings lie (R273), a pool device's, or a peer's (log entry 17); or firmware the firmware store (R328). -/
def execHostRdmaWrite (at_ : OutsideMem) (bytes : List Byte) (s : State) : Out :=
  .next (match at_ with
    | .hbm port pa => s.hostWrite port pa bytes
    | .host a => { s with hostMem := memWrite s.hostMem a bytes }
    | .pool off => if off + bytes.length ≤ 2 ^ 45 then s.outsidePut 2 0 off bytes else s
    | .flash slot part => s.flashPut slot part bytes
    | .peer pkg off => if s.peerMay pkg off bytes.length then s.outsidePut 1 pkg off bytes else s)

/-- HOST_RDMA_READ (R23): what a system-scope reader finds at the home slices. An uncorrectable word makes the read end in a
remote access error (R340). -/
def execHostRdmaRead (pa len : Nat) (s : State) : Out :=
  let ws := hbmWords pa len
  .next (if pa + len > 2 ^ 39 then s
    else if s.homeReadWaits ws then s.homeAsk false ws
    else s.send (.hostRead (s.homeBytes 0 0 pa len) (ws.any (fun w => (s.homeWord w).2))))

end Sys2Proof.Machine
end

