-- ==== Sys2Proof/Machine/Fabric.lean ====
section
/-!
DEFINITION. The fabric between packages and the pool's extents: invalidations (R191), detours and departures (R244, R348),
rejoining (R349), packets (R245 to R247) and leases (R249, R250).
-/

namespace Sys2Proof.Machine

def State.setPeer (s : State) (p : Nat) (x : Peer) : State := { s with peers := s.peers.put p x }

/-- Every copy of a line of a peer's memory dropped; dirty data of this package goes to the home first. -/
def State.dropLine (s : State) (home off : Nat) : State :=
  let frame : PWord := { kind := 1, peer := home, off := off }
  (((s.copies.filter (fun (c : Copy) => sameLine c.key.pw frame)).map (fun c => c.key.pw)).dedup).foldl (fun s w => s.recall w) s

/-- REMOTE_INVALIDATION (R191): a home asks this package to drop its copies of a line and gets the acknowledgement, or a sharer
acknowledges an invalidation of this home and shares the line no more. -/
def execRemoteInvalidation (m : InvMsg) (off : Nat) (s : State) : Out :=
  .next (match m with
    | .drop home => (s.dropLine home off).send (.dropped home off)
    | .dropped pkg =>
      let frame := off / 128 * 128
      if s.fabric.any (fun r => r.peer == pkg && r.what == .drop frame) then
        (s.answered pkg (.drop frame)).setSharer frame pkg false
      else s)

/-! ### Departures (R191, R244, R348) -/

/-- The commands that wait for a departed package fail with reason 20 (R244). -/
def State.failTransfers (s : State) (p : Nat) : State :=
  (s.cmds.filter (fun c => (c.fn == 4 || c.fn == 5) && c.target == p)).foldl (fun s c =>
    s.cmdFail c { reason := 20, kind := 0, va := 0, off := 0 }) s

/-- Every stream's stores whose deltas are acknowledged end (R194). -/
def State.tidyAll (s : State) : State := (s.allHarts.map (fun h => h.id)).foldl (fun s h => s.onAny h State.tidyStores) s

/-- A package is declared departed: its bits in the sharer vectors are cleared, what it was asked has no answer, its deltas count
as acknowledged (R248), its commands fail, and 0x8000_0100 is posted. -/
def State.depart (s : State) (p : Nat) : State :=
  if (s.peer p).departed then s
  else
    let s := s.setPeer p { s.peer p with departed := true }
    let s := { s with sharers := s.sharers.map (fun (x : Nat × BitVec 16) => (x.1, x.2 &&& ~~~ (1#16 <<< p)))
                      fabric := s.fabric.filter (fun r => r.peer != p)
                      parity := { s.parity with sent := s.parity.sent.filter (fun d => d.id.holder != p) } }
    let s := (s.failTransfers p).tidyAll
    s.raise (machineEvent 0x80000100 (BitVec.ofNat 64 p))

/-- The access that a request stands for is still under way: nobody waits for the answer of any other. -/
def State.stillAsks (s : State) (r : FabReq) : Bool :=
  match r.who with
  | .stream h pc => (s.hart? h).any (fun x => (x.live && x.c.pc == pc) || x.m.returning.any (fun a => !a.confirmed && a.trap.isNone)
      || x.m.stores.any (fun st => !st.elems.isEmpty || st.range.isSome))
  | .cmd id => (s.cmd? id).isSome
  | .other => true

/-- One attempt of a request failed (R191, R244): it is made again over the detour, or where the pod has none by the direct link;
after the direct attempt and three more the package is departed. A request that its target holds has had its answer (R245), and one
whose access has ended is given up. -/
def State.attemptFailed (s : State) (r : FabReq) : State :=
  if r.held then s
  else if !s.stillAsks r then { s with fabric := s.fabric.filter (fun x => x.id != r.id) }
  else if r.failed ≥ 3 then s.depart r.peer
  else
    let via := s.detourOf r.peer
    let r' := { r with failed := r.failed + 1, via := via, sentAt := s.clock }
    { s with fabric := s.fabric.map (fun (x : FabReq) => if x.id = r.id then r' else x) }.send (.detour r.id (via.getD r.peer))

/-- FABRIC_TIMEOUT (R244): a request has had no answer for 32,768 core clocks. -/
def execFabricTimeout (req : Nat) (s : State) : Out :=
  .next (match s.fabric.find? (fun r => r.id == req) with
    | some r => if s.clock ≥ r.sentAt + 32768 then s.attemptFailed r else s
    | none => s)

/-- The attempt of a request goes over the link between `a` and `b`. -/
def State.overLink (s : State) (r : FabReq) (a b : Nat) : Bool :=
  let on := fun (x y : Nat) => (x == a && y == b) || (x == b && y == a)
  match r.via with
  | none => on s.pkg.toNat r.peer
  | some v => on s.pkg.toNat v || on v r.peer

/-- LINK_FAILURE (R244): a link fails link-level retry; the attempts that go over it have failed. -/
def execLinkFailure (l : LinkEnds) (s : State) : Out :=
  let a := l.a
  let b := l.b
  .next (if a = b ∨ a > s.podn.toNat ∨ b > s.podn.toNat ∨ !s.linkOk a b then s
    else
      let s := if a = s.pkg.toNat then s.setPeer b { s.peer b with linkUp := false }
        else if b = s.pkg.toNat then s.setPeer a { s.peer a with linkUp := false }
        else { s with downLinks := s.downLinks ++ [(a, b)] }
      (s.fabric.filter (fun r => s.overLink r a b)).foldl (fun s r => s.attemptFailed r) s)

/-! ### Rejoining (R349) -/

/-- Copies of a home's memory dropped, with their dirty data. -/
def State.forget (s : State) (home : Nat) : State :=
  ({ s with copies := s.copies.filter (fun (c : Copy) => !(c.key.pw.kind == 1 && c.key.pw.peer == home)) } : State).trimTable

/-- An access of the executing stream to these addresses names a home's memory. -/
def State.names (s : State) (home : Nat) (acc : Acc) (priv : Bool) (vas : List Dword) : Bool :=
  vas.any (fun va => match (s.xlatPage acc priv va).1 with
    | .ok pw => pw.kind == 1 && pw.peer == home
    | .error _ => false)

/-- The pieces of a store that name a home are refused with kind NOTMAPPED, with their lanes, or with the whole of a form that is not
split (R200, R348); what is left goes on. -/
def State.failStore (s : State) (home : Nat) (st : Store) : Store :=
  let bad := st.elems.filter (fun e => s.names home { write := true, fine := fineStore st.i } st.priv (wordsAt e.ea e.data.length))
  if bad.isEmpty then st
  else { st with elems := if laneStore st.i then st.elems.filter (fun e => bad.all (fun b => b.lane != e.lane)) else []
                 faults := bad.foldl (fun acc e => addLane acc { lane := e.lane, kind := kNOTMAPPED, va := e.ea }) st.faults }

/-- The executing stream's accesses to a home that R348 fails now: loads are poisoned, stores refused. -/
def State.failAccesses (s : State) (home : Nat) : State :=
  let s := (List.range s.cur.m.returning.length).foldl (fun (s : State) k => match s.cur.m.returning[k]? with
    | some r => if s.names home (loadAcc r.i) s.cur.c.priv (r.elems.flatMap (fun e => wordsAt e.ea e.bytes)) then s.rdRet k else s
    | none => s) s
  (List.range s.cur.m.stores.length).foldl (fun s _ => s.enterRecord)
    (s.mapAcc (fun m => { m with stores := m.stores.map (s.failStore home) }))

/-- A command that accesses a home which does not answer fails with reason 20 (R348). -/
def State.failCommand (s : State) (c : Cmd) : State :=
  if c.ended then s
  else match s.runCmd c with
    | (.error f, t) => if f.reason = 20 then t.cmdFail c f else s
    | (.ok _, _) => s

/-- The outstanding accesses to a home fail as those to a departed package do (R348, R349). -/
def State.failAll (s : State) (home : Nat) : State :=
  let x := s.peer home
  let s := s.setPeer home { x with departed := true }
  let s := (s.allHarts.map (fun h => h.id)).foldl (fun s h => s.onAny h (fun s => s.failAccesses home)) s
  let s := s.cmds.foldl (fun s c => s.failCommand c) s
  let s := { s with fabric := s.fabric.filter (fun r => r.peer != home) }
  s.setPeer home x

/-- PEER_REJOIN (R349). Outbound, this package was declared departed by `peer`: it drops its copies of that home, fails what
is under way to it, and asks to rejoin. Inbound, a departed peer's request is accepted. -/
def execPeerRejoin (peer : Nat) (inbound : Bool) (s : State) : Out :=
  .next (if inbound then
      if (s.peer peer).departed then
        (s.setPeer peer Peer.zero).raise (machineEvent 0x80000101 (BitVec.ofNat 64 peer))
      else s
    else ((s.forget peer).failAll peer).send (.rejoin peer))

/-! ### Packets (R245 to R247) -/

/-- What the source of a packet learns: that it was performed or refused, or that it has to send the packet again because the
workgroup is not resident (R245). A packet that has to wait at a home asks there, and arrives again. -/
def State.arrive_ (s : State) (p : Packet) : State :=
  match s.deliver p with
  | (.refused r k va, s) => s.send (.refuse p r k va)
  | (.done, s) => s.send (.ack p)
  | (.held, s) => s.send (.hold p)
  | (.waits own pw, s) => s.askWord none own pw

/-- A request of a transfer has its answer, and what it changes in the command. -/
def State.answerCmd (s : State) (id : Nat) (what : FabWhat) (f : Cmd → Cmd) : State :=
  match s.cmd? id with
  | none => s
  | some c =>
    if s.fabric.any (fun r => r.peer == c.target && r.what == what) then (s.answered c.target what).setCmd (f c) else s
/-- The target holds a request of a transfer (R245): its attempts count anew once it is sent again. -/
def State.holdCmd (s : State) (id : Nat) (what : FabWhat) : State :=
  match s.cmd? id with
  | none => s
  | some c => { s with fabric := s.fabric.map (fun (r : FabReq) =>
      if r.peer = c.target ∧ r.what = what then { r with held := true, failed := 0, sentAt := s.clock } else r) }

/-- XFER_PACKET_ARRIVAL (R246, R247): a packet of another package's XFER, or the answer to one of this package's: performed,
refused, or held. -/
def execXferPacketArrival (m : XferMsg) (s : State) : Out :=
  .next (match m with
    | .data p => if handlePkg p.handle != s.pkg.toNat || (s.peer p.src).departed then s else s.arrive_ p
    | .done id off => s.answerCmd id (.xfer id off) (fun c => c)
    | .refused id off reason kind va => s.answerCmd id (.xfer id off) (fun c =>
        { c with refused := some { reason := reason, kind := kind, va := va, off := off - c.bm } })
    | .held id off => s.holdCmd id (.xfer id off))

/-- The words of a reply, with the offsets of the poisoned ones. -/
def replyWords (data : List Byte) (bads : List Nat) : List (Word × Bool) :=
  (packetWords data bads).map (fun x => (BitVec.ofNat 32 (leNat x.2.1), x.2.2))

/-- The bytes of one packet of an XGET written locally at once (R246); while one of their words waits, the reply does. -/
def State.xgetReply (s : State) (c : Cmd) (off : Nat) (ws : List (Word × Bool)) : State :=
  match s.storeLocal c (off - c.bm) ws with
  | (.error f, t) =>
    if f.reason = 0 then s.cmdAsk c f else (t.answered c.target (.xget c.id off)).setCmd { c with refused := some f }
  | (.ok _, t) => (t.answered c.target (.xget c.id off)).setCmd
      { c with fin := some (0, c.fin == some (0, true) || ws.any (fun w => w.2)) }

/-- XGET_READ_REQUEST (R246): `n` bytes of a window for another package, or the answer to a request of this package's own transfer
number `n`. -/
def execXgetReadRequest (m : XgetMsg) (n : Nat) (s : State) : Out :=
  .next (match m with
    | .ask p =>
      if handlePkg p.handle != s.pkg.toNat || (s.peer p.src).departed then s
      else match s.fetchWindow p.handle p.off n with
        | (.error .held, s) => s.send (.hold p)
        | (.error (.waits own pw), s) => s.askWord none own pw
        | (.error .done, s) => s
        | (.error (.refused r k va), s) => s.send (.refuse p r k va)
        | (.ok ws, s) =>
          s.send (.readReply p ((ws.flatMap (fun w => leBytes 4 w.1.toNat)).take n)
            (((List.range ws.length).filter (fun j => (ws[j]?).any (fun w => w.2))).map (fun j => 4 * j)))
    | .reply off data bads => match s.cmd? n with
      | none => s
      | some c =>
        if (packetsOf c.bm c.xlen).contains (off, data.length)
            && s.fabric.any (fun r => r.peer == c.target && r.what == .xget n off) then s.xgetReply c off (replyWords data bads)
        else s
    | .refused off reason kind va => s.answerCmd n (.xget n off) (fun c =>
        { c with refused := some { reason := reason, kind := kind, va := va, off := off - c.bm } })
    | .held off => s.holdCmd n (.xget n off))

/-- PACKET_RESEND (R245): a request that its target holds is sent again, 4,096 core clocks after the answer; one of a transfer within
the package has its command carried on. -/
def execPacketResend (req : Nat) (s : State) : Out :=
  .next (match s.fabric.find? (fun r => r.id == req) with
    | none => s
    | some r =>
      if !r.held || s.clock < r.sentAt + 4096 then s
      else if r.peer = s.pkg.toNat then
        let t := { s with fabric := s.fabric.filter (fun x => x.id != req) }
        match s.cmds.find? (fun c => r.ofCmd c.id) with
        | none => t
        | some c => t.endCmd c
      else
        { s with fabric := s.fabric.map (fun (x : FabReq) => if x.id = req then { x with held := false, sentAt := s.clock } else x) }.send
          (.resend req))

/-! ### Extents (R249, R250) -/

/-- EXTENT_ADD (R249): the fabric manager adds an extent to a port's decode. -/
def execExtentAdd (port base size : Nat) (s : State) : Out :=
  .next (if port > 3 || base + size > 2 ^ 43 || s.extents.any (fun e => e.port == port && e.base == base) then s
    else { s with extents := s.extents ++ [{ port := port, base := base, size := size }] })

/-- EXTENT_RELEASE (R250): the port removes an extent from its decode. Copies in the caches stay. -/
def execExtentRelease (port base : Nat) (s : State) : Out :=
  .next { s with extents := s.extents.filter (fun e => !(e.port == port && e.base == base)) }

end Sys2Proof.Machine
end

