-- ==== Sys2Proof/Machine/ParityEvents.lean ====
section
/-!
DEFINITION. Uncorrectable data (R340, R341), parity deltas (R194, R248) and parity groups (R342 to R347). What other members
hold arrives with the events (log entry 17).
-/

namespace Sys2Proof.Machine

/-! ### Uncorrectable errors (R340, R341) -/

/-- UNIT of a compute die (R341). -/
def dieUnit (core : Nat) : Nat := dieOf core

/-- SOURCE of a word by its KIND. -/
def kindSource (kind : Nat) : Nat := if kind = 3 then 6 else if kind = 2 then 8 else if kind = 1 then 7 else 0

/-- A record of an error at what failed; its requester is the core whose access found it (R341). -/
def State.logPoison (s : State) (site : ErrSite) (addr source unit : Nat) (core : Option Nat) : State :=
  s.logError { sites := [site], addr := addr, source := source, action := 0, unit := unit,
               req := (core.map s.requester).getD noRequester }

/-- UNIT for a word: the die of a weight store, the I/O die of the half for a port, else the home's base die. -/
def State.wordUnit (s : State) (pw : PWord) : Nat × State :=
  if pw.kind = 3 then (pw.off / 2 ^ 29 % 16, s)
  else if pw.kind = 0 then (homeUnit pw.off, s)
  else
    let (k, s) := s.choose 2
    (2 * 2 ^ 14 + k, s)

/-- A word of memory fails correction, found by a source. -/
def State.poisonWord (s : State) (pw : PWord) (source : Nat) (core : Option Nat) : State :=
  let pw := { pw with off := pw.off / 4 * 4 }
  let (u, s) := s.wordUnit pw
  { s with memBad := addNat s.memBad (pwKey pw) }.logPoison (.word pw) pw.off source u core

/-- UNCORRECTABLE_ERROR (R340): a word in memory or in the LLC, a cached copy or a register fails correction, and the log records
it, with the core whose access found it. -/
def execUncorrectableError (e : ErrFind) (s : State) : Out :=
  .next (match e.site with
    | .word pw => s.poisonWord pw (kindSource pw.kind) e.core
    | .llc pw => if pw.kind = 0 then s.poisonWord pw 1 e.core else s
    | .copy n w =>
      let c := s.copyAt n w
      if n.level ≤ 1 && c.st != .i then
        (s.setCopy { c with bad := true }).logPoison e.site w.pw.off (3 - n.level) (dieUnit (n.idx * nodeSpan n.level)) e.core
      else s
    | .scratch g off =>
      let x := s.group g
      if s.groupLives g && off / 4 * 4 + 4 ≤ x.scratchSize then
        (s.setGroup g { x with scratchBad := addNat x.scratchBad (off / 4 * 4) }).logPoison e.site off 5 (dieUnit x.core) e.core
      else s
    | .vreg h r => match s.hart? h with
      | some x =>
        if x.live && r < x.pl.regs then
          (s.updHart h (fun x => { x with r := x.r.setV r { x.r.getV r with tag := poisonTag } })).logPoison e.site 0 4 (dieUnit x.pl.core) e.core
        else s
      | none => s
    | .sreg h r => match s.hart? h with
      | some x =>
        if x.live && 1 ≤ r && r < 128 then
          (s.updHart h (fun x => { x with r := { x.r with sbad := addNat x.r.sbad r } })).logPoison e.site 0 4 (dieUnit x.pl.core) e.core
        else s
      | none => s)

/-! ### Deltas (R194, R248) -/

/-- The stream that a delta belongs to: its package and its home slice. -/
def deltaStream (d : Delta) : Nat := d.src + 16 * d.stream
/-- The name of a delta that this package receives. -/
def State.deltaName (s : State) (d : Delta) : DeltaId := { home := d.src, slice := d.stream, holder := s.pkg.toNat, seq := d.seq }

/-- The members that hold a data word of a row. -/
def Parity.dataMembers (p : Parity) (r : Nat) : List Nat := (List.range p.g).filter (fun m => m != p.holder r)
/-- The XOR of what a poisoned parity word's members have written since, once each of them has (R342). -/
def Parity.wholeAgain (p : Parity) (r : Nat) (x : LostParity) : Option Word :=
  let ms := p.dataMembers r
  if ms.all (fun m => x.seen.any (fun e => e.1 == m)) then some (ms.foldl (fun w m => w ^^^ x.seen.at m 0) 0) else none

/-- A member's word written anew where the parity word is poisoned (R342): the parity is whole once every member has written. -/
def State.seeWord (s : State) (r m : Nat) (pw : PWord) (x : Word) : State :=
  let l := (s.parity.lostWords.find? (fun e => e.off == pw.off)).getD { off := pw.off, seen := [] }
  let l := { l with seen := l.seen.put m x }
  let rest := s.parity.lostWords.filter (fun e => e.off != pw.off)
  match s.parity.wholeAgain r l with
  | some w => { s with parity := { s.parity with lostWords := rest } }.homeWrite pw (fun _ => w) true
  | none => { s with parity := { s.parity with lostWords := l :: rest }, memBad := addNat s.memBad (pwKey pw) }

/-- One word of a delta at the parity frame: the XOR added; where the old data was lost, the parity word becomes poisoned, and
the log records it (R342). -/
def State.applyWord (s : State) (d : Delta) (r j : Nat) : State :=
  let pw := hbmWord (d.off / 4 * 4 + 4 * j)
  let x := pieceOf (BitVec.ofNat 64 d.off) d.xor j
  let n := pieceOf (BitVec.ofNat 64 d.off) d.new j
  let lost := s.parity.lostWords.any (fun e => e.off == pw.off)
  if d.spoils || lost then
    let s := if lost then s else s.logPoison (.word pw) pw.off 0 (homeUnit pw.off) none
    match s.parity.indexOf d.src with
    | some m => if n.2.length ≥ 4 then s.seeWord r m pw (setBytes 0 n.1 n.2) else s
    | none => s
  else s.homeWrite pw (fun w => w ^^^ setBytes 0 x.1 x.2) false

/-- A delta applied to the parity frame, word by word, with its acknowledgement. A row whose parity is gone takes none (R345). -/
def State.applyDelta (s : State) (d : Delta) (r : Nat) : State :=
  let s := if s.parity.rowHasParity r then
      (List.range ((d.off % 4 + d.xor.length + 3) / 4)).foldl (fun s j => s.applyWord d r j) s
    else s
  { s with parity := { s.parity with applied := s.parity.applied.put (deltaStream d) (d.seq + 1) } }.send (.deltaAck (s.deltaName d))

/-- The deltas that wait for their turn applied while the next one is there. -/
def State.applyWaiting (s : State) : Nat → State
  | 0 => s
  | n + 1 => match s.parity.waiting.find? (fun d => d.seq == s.parity.applied.at (deltaStream d) 0) with
    | none => s
    | some d =>
      let s := { s with parity := { s.parity with waiting := s.parity.waiting.erase d } }
      (s.applyDelta d ((s.parity.rowOf d.off).getD 0)).applyWaiting n

/-- PARITY_DELTA (R248): a delta reaches this package as holder. It is applied in the order of its stream; one that was
applied already is acknowledged again. -/
def execParityDelta (d : Delta) (s : State) : Out :=
  .next (match s.parity.rowOf d.off with
    | none => s
    | some r =>
      if s.parity.holder r != s.parity.selfIdx || (s.peer d.src).departed then s
      else if d.seq < s.parity.applied.at (deltaStream d) 0 then s.send (.deltaAck (s.deltaName d))
      else
        let s := { s with parity := { s.parity with waiting := s.parity.waiting ++ [d] } }
        s.applyWaiting s.parity.waiting.length)

/-- An acknowledged delta to a peer's word: its parity holds that value, unless a later delta has been acknowledged already
(R194, R346). -/
def Parity.nowSafe (p : Parity) (self : Nat) (d : OutDelta) : List SafeWord :=
  let key := pwKey { kind := 1, peer := d.id.home, off := d.off }
  if d.id.home = self ∨ p.safe.any (fun x => x.key == key && decide (d.id.seq < x.seq)) then p.safe
  else { key := key, seq := d.id.seq, val := d.val } :: p.safe.filter (fun x => x.key != key)

/-- Delta number `seq` of a stream. -/
def deltaOf (x : DeltaStream) (seq : Nat) : DeltaId := { home := x.home, slice := x.slice, holder := x.holder, seq := seq }

/-- PARITY_DELTA_ACK (R194): a delta's acknowledgement ends the survivable accesses that wait for it alone. That of a departed
package is ignored (R348). -/
def execParityDeltaAck (stream : DeltaStream) (seq : Nat) (s : State) : Out :=
  let d := deltaOf stream seq
  .next (match s.parity.sent.find? (fun x => x.id == d) with
    | none => s
    | some x =>
      if (s.peer d.holder).departed then s
      else
        let p := { s.parity with sent := s.parity.sent.filter (fun e => e.id != d) }
        (({ s with parity := { p with safe := p.nowSafe s.pkg.toNat x } }).answered d.holder (.delta d)).tidyAll)

/-! ### Rebuilding (R342, R345) -/

/-- A word that parity gives back, written without a delta. -/
def State.putRebuilt (s : State) (pw : PWord) (x : Word) (bad : Bool := false) : State :=
  let (v, s) := s.newVer
  { s with mem := memPutWord s.mem (pwKey pw) x, homeVer := s.homeVer.put (pwKey pw) v
           memBad := if bad then addNat s.memBad (pwKey pw) else dropNat s.memBad (pwKey pw) }

/-- The requester of a word's rebuild (R341). -/
def State.wantedBy (s : State) (off : Nat) : Dword :=
  match s.parity.wanted.find? (fun w => w.1 == off) with
  | some (_, some core) => s.requester core
  | _ => noRequester

/-- PARITY_WORD_REBUILD (R342): a poisoned word of a protected frame is rebuilt from the XOR of the row's parity word and of its
other data words, which the other members hold (log entry 17). The rebuild fails where one of them is poisoned, or lies on a
lost member. -/
def execParityWordRebuild (w : WordRebuild) (s : State) : Out :=
  let pw := hbmWord w.off
  .next (match s.parity.rowOf pw.off with
    | none => s
    | some r =>
      if !s.isProtected pw || !s.memBad.contains (pwKey pw) then s
      else
        let req := s.wantedBy pw.off
        let p := { s.parity with wanted := s.parity.wanted.filter (fun w => w.1 != pw.off) }
        let x := if p.degraded && !p.restored r then none else w.others
        let s := match x with
          | some w => ({ s with parity := { p with failed := dropNat p.failed pw.off } }).putRebuilt pw w
          | none => { s with parity := { p with failed := addNat p.failed pw.off } }
        s.logError { sites := [.word pw], addr := pw.off, source := 0, action := if x.isNone then 2 else 1, unit := homeUnit pw.off,
                     req := req })

/-- The members of the group that are not lost, by index. -/
def survivors (p : Parity) (lost : Nat) : List Nat := (List.range p.g).filter (fun m => m != lost)

/-- The words that this package has written at the lost home, with the values of its later stores there that the holder may have
applied without an acknowledgement (R346). -/
def Parity.withLate (p : Parity) (home : Nat) : List SafeWord :=
  p.safe.map (fun e => { e with late := (p.sent.filter (fun d =>
    d.id.home == home && pwKey { kind := 1, peer := home, off := d.off } == e.key && decide (e.seq < d.id.seq))).map (fun d => d.val) })

/-- GROUP_DEGRADED (R345): a departed member is lost. The lowest-numbered survivor's fabric manager posts the event. The deltas
that the lost home formed have no acknowledgement to come, none is waited for any more, and those of its deltas that wait here for
an earlier one are not applied (R346). -/
def execGroupDegraded (member : Nat) (s : State) : Out :=
  let p := s.parity
  .next (if !p.on || p.degraded || member ≥ p.g || member == p.selfIdx || !(s.peer (p.member member)).departed then s
    else
      let cfg := putBits (putBits (putBits p.cfg 40 4 member) 39 1 1) 38 1 1
      let s := { s with parity := { p with cfg := cfg, prog := 0, early := [], restoring := false
                                           safe := p.withLate (p.member member)
                                           sent := p.sent.filter (fun d => d.id.home != p.member member)
                                           waiting := p.waiting.filter (fun d => d.src != p.member member) } }
      let s := s.tidyAll
      if (survivors p member).head? = some p.selfIdx then s.raise (machineEvent 0x80000300 (BitVec.ofNat 64 member)) else s)

/-- The first word of a row's frame in this package, or in a peer. -/
def Parity.frameAt (p : Parity) (r : Nat) (peer : Option Nat) : PWord :=
  let off := (p.baseFrame + r) * 65536
  match peer with
  | none => { kind := 0, peer := 0, off := off }
  | some k => { kind := 1, peer := k, off := off }
/-- A word at the same place of another frame. -/
def inFrame (pw base : PWord) : PWord := { base with off := base.off / 65536 * 65536 + pw.off % 65536 }

/-- The words of a frame from `pw` on written by `f` from the event's bytes. -/
def State.putFrame (s : State) (f : State → PWord → Word → Word × Bool) : PWord → List Byte → State
  | pw, a :: b :: c :: d :: rest =>
    let (x, bad) := f s pw (BitVec.ofNat 32 (leNat [a, b, c, d]))
    (s.putRebuilt pw x bad).putFrame f { pw with off := pw.off + 4 } rest
  | _, _ => s

/-- A frame copied, as its home holds it once every copy of it has been recalled (R182): none of them is left under the frame's
name. -/
def State.copyFrame (s : State) (src dst : PWord) : State :=
  let ws := ((s.copies.map (fun c => c.key.pw)).filter (fun w =>
    w.kind == src.kind && w.peer == src.peer && w.off / 65536 == src.off / 65536)).dedup
  let s := ws.foldl (fun s w => s.recall w) s
  (List.range 16384).foldl (fun s j =>
    let a : PWord := { src with off := src.off + 4 * j }
    s.putRebuilt { dst with off := dst.off + 4 * j } (memWord s.mem (pwKey a)) (s.memBad.contains (pwKey a))) s

/-- The lost member's word as the rebuild gives it (R194, R345, R346): a word to which a store of this package was applied is the value
of the last one acknowledged, or of a later store whose delta the holder may have applied; any other is `x`. -/
def State.rebuiltWord (s : State) (lost : PWord) (x : Word) (bad : Bool) : Word × Bool :=
  match s.parity.safe.find? (fun e => e.key == pwKey lost) with
  | none => (x, bad)
  | some e => (if e.late.contains x then x else e.val, false)

/-- The lost member's frame of a row at its new home (R345): this package, whose parity frame gives it with the XOR of the
surviving data frames; or another survivor, whose rebuilt frame the bytes are (log entry 17). Copies under the old home's name
go. -/
def State.rebuildRow (s : State) (row : Nat) (others : List Byte) : State :=
  let p := s.parity
  let old := p.frameAt row (some (p.member p.lost))
  let s := if p.holder row = p.lost then s
    else if p.holder row = p.selfIdx then
      s.putFrame (fun s pw x => s.rebuiltWord (inFrame pw old) (memWord s.mem (pwKey pw) ^^^ x) (s.memBad.contains (pwKey pw)))
        (p.frameAt row none) others
    else s.putFrame (fun s pw x => s.rebuiltWord (inFrame pw old) x false) (p.frameAt row (some (p.member (p.holder row)))) others
  { s with copies := s.copies.filter (fun (c : Copy) =>
             !(c.key.pw.kind == 1 && c.key.pw.peer == old.peer && c.key.pw.off / 65536 == old.off / 65536 && p.holder row != p.lost))
           parity := { s.parity with lostWords := s.parity.lostWords.filter (fun e => e.off / 65536 != old.off / 65536) } }

/-- NEXTROW moves past every row that is done. -/
def Parity.advance (p : Parity) : Nat → Parity
  | 0 => p
  | n + 1 =>
    if p.early.contains p.nextRow then
      ({ p with prog := BitVec.ofNat 64 (p.nextRow + 1), early := dropNat p.early p.nextRow } : Parity).advance n
    else p

/-- A delta already formed for a row has still to be applied (R345). -/
def Parity.rowUnderWay (p : Parity) (row : Nat) : Bool :=
  p.sent.any (fun d => p.rowOf d.off == some row) || p.waiting.any (fun d => p.rowOf d.off == some row)

/-- PARITY_ROW_REBUILD (R345): a row of the lost member is rebuilt, once every delta already formed for it has been applied. -/
def execParityRowRebuild (r : RowData) (s : State) : Out :=
  let p := s.parity
  let row := r.row
  let others := r.others
  .next (if !p.degraded || !p.rebuilding || row ≥ p.rows || p.rebuilt row || p.rowUnderWay row || others.length != 65536 then s
    else
      let s := s.rebuildRow row others
      let q := { s.parity with early := row :: s.parity.early }
      { s with parity := q.advance q.early.length })

/-- PARITY_REBUILD_COMPLETE (R345). -/
def execParityRebuildComplete (s : State) : Out :=
  let p := s.parity
  .next (if p.degraded && p.rebuilding && p.nextRow ≥ p.rows then
      { s with parity := { p with cfg := putBits p.cfg 38 1 0 } }.raise (machineEvent 0x80000301 (BitVec.ofNat 64 p.rows))
    else s)

/-! ### Replacement (R347) -/

/-- PARITY_MEMBER_REPLACE: a package takes the lost member's index. -/
def execParityMemberReplace (member pkg : Nat) (s : State) : Out :=
  let p := s.parity
  .next (if p.degraded && !p.rebuilding && p.lost == member && pkg < 16 then
      { s with parity := { p with memb := putBits p.memb (4 * member) 4 pkg, prog := 0, early := [], restoring := true } }
    else s)

/-- A row restored (R347): the replacement's frame is written; where this package holds the row, the lost member's data goes to
the replacement, and with the XOR of the other data frames the parity stands here again; a third package finds the data at the
replacement from now on. -/
def State.restoreRow (s : State) (row : Nat) (others : List Byte) : State :=
  let p := s.parity
  let here := p.frameAt row none
  let there := p.frameAt row (some (p.member p.lost))
  if p.lost = p.selfIdx then s.putFrame (fun _ _ x => (x, false)) here others
  else if p.holder row = p.lost then s
  else if p.holder row = p.selfIdx then
    (s.copyFrame here there).putFrame (fun s pw x => (memWord s.mem (pwKey pw) ^^^ x, s.memBad.contains (pwKey pw))) here others
  else s.copyFrame (p.frameAt row (some (p.member (p.holder row)))) there

/-- PARITY_ROW_RESTORE: the next row is restored; with the last one protection is whole again. -/
def execParityRowRestore (r : RowData) (s : State) : Out :=
  let p := s.parity
  let row := r.row
  let others := r.others
  .next (if !(p.degraded && p.restoring) || row != p.nextRow || row ≥ p.rows || others.length != 65536 then s
    else
      let s := s.restoreRow row others
      let q := { s.parity with prog := BitVec.ofNat 64 (row + 1) }
      let q := if row + 1 ≥ p.rows then { q with cfg := putBits q.cfg 39 1 0, restoring := false } else q
      { s with parity := q })

end Sys2Proof.Machine
end

