-- ==== Sys2Proof/Machine/DieLoss.lean ====
section
/-!
DEFINITION. The loss of a compute die (R27, R350) and the rebuild of its stack directory's entries (R351, R352). The census
is taken when the die fails; accesses to an entry wait until the rebuild reaches it (log entry 28).
-/

namespace Sys2Proof.Machine

/-! ### The census (R351) -/

/-- The directory node of a die. -/
def dieNode (d : Nat) : Node := { level := 2, idx := d }

/-- The coherent words that the directory of a die holds, by ascending address. -/
def State.dieWords (s : State) (d : Nat) : List PWord :=
  let ws := ((s.copies.filter (fun (c : Copy) => c.node == dieNode d && c.st != .i && c.key.pw.kind != 2)).map
    (fun c => c.key.pw)).dedup
  ws.foldl (fun acc w => (acc.filter (fun x => pwKey x < pwKey w)) ++ [w] ++ acc.filter (fun x => pwKey x > pwKey w)) []

/-- The copies of a word in the caches of a die. -/
def State.dieData (s : State) (d : Nat) (pw : PWord) : List Copy :=
  s.copies.filter (fun (c : Copy) => nodeUnder (dieNode d) c.node && c.node.level ≤ 1 && c.key.pw == pw && c.st != .i && c.val.isSome)

/-- How an entry is resolved. -/
inductive Census where
  | removed
  | owner (c : Copy)
  | lost
  deriving DecidableEq, Repr

/-- The stack directory's record of a word. -/
def State.stackCopy (s : State) (d : Nat) (pw : PWord) : Copy := s.copyAt { level := 3, idx := d / 2 } (physName pw)

/-- DIRTY of the entry of a failed die: its directory took the word to W, M or O, and has not pushed what it holds. -/
def State.dieDirty (s : State) (d : Nat) (pw : PWord) : Bool :=
  let es := s.copies.filter (fun (c : Copy) => c.node == dieNode d && c.key.pw == pw)
  let up := s.stackCopy d pw
  let pushed := up.val.isSome && (match newest ((s.dieData d pw).filter (fun c => isDirty c.st)) with
    | some c => decide (c.ver ≤ up.ver)
    | none => true)
  es.any (fun c => c.st == .w || c.st == .m || (c.st == .o && !pushed))

/-- The table of R351 for one word. -/
def State.census (s : State) (d : Nat) (pw : PWord) : Census :=
  if !s.dieDirty d pw then .removed
  else
    let wasO := s.copies.any (fun (c : Copy) => c.node == dieNode d && c.key.pw == pw && c.st == .o)
    let dead := newest ((s.dieData d pw).filter (fun c => isDirty c.st))
    match (s.dieData (if d % 2 = 0 then d + 1 else d - 1) pw).find? (fun c => wasO && dead.any (fun x => x.val == c.val && x.bad == c.bad)) with
    | some c => .owner c
    | none => .lost

/-- A copy of the sibling becomes the owner. -/
def State.promote (s : State) (c : Copy) : State :=
  [c.node.level, 1, 2].foldl (fun s l =>
    if l < c.node.level then s
    else s.updCopy (chainNode (c.node.idx * nodeSpan c.node.level) l) c.key (fun e =>
      { e with st := if isDirty e.st then e.st else .o })) s

/-- The page of a word is protected (R344). -/
def State.protWord (s : State) (pw : PWord) : Bool := pw.kind == 0 && (s.parity.rowOf pw.off).isSome

/-- What the stack directory holds of a word goes home where it is newer (R352). -/
def State.keepPushed (s : State) (up : Copy) (pw : PWord) : State :=
  match up.val with
  | some x =>
    if up.ver > s.homeVer.at (pwKey pw) 0 then
      { s.homePut pw x up.bad with homeVer := s.homeVer.put (pwKey pw) up.ver }
    else s
  | none => s

/-- A word of the failed die resolved. -/
def State.resolveWord (s : State) (d : Nat) (pw : PWord) : State :=
  let r := s.census d pw
  let up := s.stackCopy d pw
  let s := { s with copies := s.copies.filter (fun (c : Copy) => !(nodeUnder (dieNode d) c.node && c.key.pw == pw)) }
  let s := match r with
    | .removed => s.keepPushed up pw
    | .owner c => s.promote c
    | .lost =>
      if s.protWord pw then s.keepPushed up pw
      else { s with memBad := addNat s.memBad (pwKey pw) }
  s.settle { core := 32 * d, lvl := 1 } (physName pw)

/-- A word of the failed die is lost. -/
def State.wordLost (s : State) (d : Nat) (pw : PWord) : Bool :=
  match s.census d pw with
  | .lost => true
  | _ => false

/-- Words that no tracked span covers cut into entries: adjacent words of one frame with one outcome (log entry 28). -/
def State.looseSpans (s : State) (d : Nat) : List PWord → List DeadSpan
  | [] => []
  | w :: rest =>
    let lost := s.wordLost d w
    let poison := lost && !s.protWord w
    match s.looseSpans d rest with
    | [] => [{ pw := w, words := 1, lost := lost, poison := poison }]
    | x :: xs =>
      if sameLine w x.pw && w.off + 4 == x.pw.off && lost == x.lost && poison == x.poison then
        { x with pw := w, words := x.words + 1 } :: xs
      else { pw := w, words := 1, lost := lost, poison := poison } :: x :: xs

/-- The entries that name a failed die: each span that its directory tracked, on its own, and the words left over. A span is lost
where a word of it is. -/
def State.deadSpans (s : State) (d : Nat) : List DeadSpan :=
  let ws := s.dieWords d
  let rs := s.spans.filter (fun r => r.node == dieNode d && r.keys.any (fun k => ws.contains k.pw))
  let es := rs.map (fun r =>
    let mine := (r.keys.map (fun k => k.pw)).filter (fun w => ws.contains w)
    ({ pw := r.key.pw, words := r.words, lost := mine.any (s.wordLost d)
       poison := mine.any (fun w => s.wordLost d w && !s.protWord w) } : DeadSpan))
  es ++ s.looseSpans d (ws.filter (fun w => rs.all (fun r => r.keys.all (fun k => k.pw != w))))

/-! ### The loss (R350) -/

/-- A stream stands on a die. -/
def onDie (d : Nat) (h : Hart) : Bool := dieOf h.pl.core == d

/-- The workgroups that a die's loss ends: those on it, and every workgroup of their gangs. -/
def State.lostGroups (s : State) (d : Nat) : List Nat :=
  let here := s.groups.filter (fun p => (p.2.phase == .resident || p.2.phase == .saving) && dieOf p.2.core == d)
  let gangs := (here.map (fun p => p.2.gang)).dedup
  (s.groups.filter (fun p => p.2.phase != .ended && gangs.contains p.2.gang)).map (fun p => p.1)

/-- A Bowler stream of the failed die ends without token writes. -/
def State.killBowler (s : State) (id : Nat) : State :=
  match s.hart? id with
  | none => s
  | some h => (s.uncount h.pl.launch 1).updHart id (fun h => { h.dead with bow := { h.bow with saved := false } })

/-- A Bowler stream of another die whose last workgroup of the launch was ended. -/
def State.idleBowler (s : State) (launches : List Nat) (h : Hart) : Bool :=
  h.role == .bowler && (h.live || h.bow.saved) && launches.contains h.pl.launch
    && !(s.groups.any (fun p => p.2.launch == h.pl.launch && p.2.phase != .ended && clusterOf p.2.core == clusterOf h.pl.core))

/-- The table of a cluster emptied (R350). -/
def emptyTable (c : Cluster) : Cluster :=
  { c with table := c.table.map (fun e => if e.st == .free then e else { Entry.zero with gen := (e.gen + 1) % 256 }) }

/-- The unissued and unreturned accesses of a stream that were on the die are gone with it. -/
def dropAccesses (h : Hart) : Hart := { h with m := Accesses.zero }

/-- DIE_LOSS (R27, R350, R351). -/
def execDieLoss (die : Nat) (s : State) : Out :=
  .next (if die ≥ 16 || (s.die die).failed then s
    else
      let gs := s.lostGroups die
      let ls := (gs.map (fun g => (s.group g).launch)).dedup
      let touched := (gs.map (fun g => clusterOf (s.group g).core)).dedup
      let s := s.raise (machineEvent 0x80000200 (BitVec.ofNat 64 die))
      -- the directory's entries, and the caches
      let spans := s.deadSpans die
      let s := (s.dieWords die).foldl (fun s w => s.resolveWord die w) s
      let s := { s with copies := s.copies.filter (fun (c : Copy) => !nodeUnder (dieNode die) c.node)
                        syncs := s.syncs.filter (fun r => !nodeUnder (dieNode die) r.node)
                        spans := s.spans.filter (fun r => !nodeUnder (dieNode die) r.node)
                        cmds := s.cmds.filter (fun c => !(c.fn ≤ 3 && c.cluster / 8 == die)) }
      let s := s.setDie die { s.die die with failed := true, rebuild := some (0, 0), spans := spans, icache := [], ahead := [] }
      -- the work
      let s := ls.foldl (fun s l =>
        let n := (gs.filter (fun g => (s.group g).launch == l)).length
        let s := s.setLaunch l { s.launch l with lostGroups := (s.launch l).lostGroups + n }
        s.raise (s.launchEvent l 4 0x80000202 (BitVec.ofNat 64 n))) s
      let s := gs.foldl (fun s g => s.endGroup g) s
      let s := { s with clusters := s.clusters.map (fun (p : Nat × Cluster) => if p.1 / 8 = die then (p.1, emptyTable p.2) else p) }
      let bs := (s.allHarts.filter (fun h => h.role == .bowler && (h.live || h.bow.saved) && onDie die h)).map (fun h => h.id)
      let s := bs.foldl State.killBowler s
      let s := s.mapHarts (fun h => if onDie die h then dropAccesses h else h)
      let is := (s.allHarts.filter (fun h => s.idleBowler ls h && touched.contains (clusterOf h.pl.core))).map (fun h => h.id)
      is.foldl (fun s h => s.onHart h (fun s => s.endBowler (endStatus 2))) s)

/-- DIE_DIRECTORY_REBUILD (R351): one core clock, in which up to four entries are resolved. Each lost span of an unprotected
page is logged with ACTION 3. -/
def execDieDirectoryRebuild (die : Nat) (s : State) : Out :=
  let d := s.die die
  .next (match d.rebuild with
    | none => s
    | some (n, lost) =>
      if d.spans.isEmpty then s
      else
        let now := d.spans.take 4
        let s := s.setDie die { d with
          rebuild := some (n + 1, lost + (now.filter (fun x => x.lost)).length), spans := d.spans.drop 4 }
        now.foldl (fun s x =>
          if x.poison then s.logError { sites := (List.range x.words).map (fun j => .word { x.pw with off := x.pw.off + 4 * j }), addr := x.pw.off, source := 9, action := 3, unit := 2 ^ 14 + die / 2, req := noRequester }
          else s) s)

/-- DIE_REBUILD_COMPLETE (R351): clocks taken and spans marked lost. -/
def execDieRebuildComplete (die : Nat) (s : State) : Out :=
  let d := s.die die
  .next (match d.rebuild with
    | none => s
    | some (n, lost) =>
      if d.spans.isEmpty then
        (s.setDie die { d with rebuild := none }).raise
          (machineEvent 0x80000201 (BitVec.ofNat 64 (n % 2 ^ 32 * 2 ^ 32 + lost % 2 ^ 32)))
      else s)

end Sys2Proof.Machine
end

