-- ==== Sys2Proof/Machine/Graph.lean ====
section
/-!
DEFINITION. Task-graph objects (R265 to R267), launch headers (R255 to R257), the checks of registration and the graph table
(R268).
-/

namespace Sys2Proof.Machine

/-! ### The front end's accesses -/

/-- The physical word of a virtual address as the front end reads or writes it, on a page of a kind listed. -/
def State.feWord (s : State) (asid : BitVec 16) (kinds : List Nat) (va : Dword) : Option PWord :=
  if !canonical va then none
  else match s.walk asid va with
    | none => none
    | some (leaf, lvl) =>
      let off := getBits leaf 16 36 * 65536 + va.toNat % pageSize lvl
      let kind := getBits leaf 57 3
      let pw : PWord := { kind := kind, peer := if kind = 1 then getBits leaf 60 4 else 0, off := off / 4 * 4 }
      if (s.leafFault {} true leaf (pageSize lvl) off).isSome || !kinds.contains kind
          || (kind == 2 && !s.extentAt off) then none
      else some (s.redirect pw)

/-- A word as the front end reads it, none where it is poisoned. -/
def State.feGet (s : State) (pw : PWord) : Option Word :=
  let (x, bad) := if pw.kind = 2 then (memWord s.mem (pwKey pw), s.memBad.contains (pwKey pw)) else s.homeWord pw
  if bad || s.gone pw then none else some x

/-- `n` consecutive words from an aligned address on. -/
def State.feWords (s : State) (asid : BitVec 16) (kinds : List Nat) (va : Dword) : Nat → Option (List Word)
  | 0 => some []
  | n + 1 => match (s.feWord asid kinds va).bind s.feGet with
    | none => none
    | some x => (s.feWords asid kinds (va + 4) n).map (fun l => x :: l)

/-- `n` bytes from a virtual address on. -/
def State.feRead (s : State) (asid : BitVec 16) (kinds : List Nat) (va : Dword) (n : Nat) : Option (List Byte) :=
  (s.feWords asid kinds (va - BitVec.ofNat 64 (va.toNat % 4)) ((va.toNat % 4 + n + 3) / 4)).map (fun ws =>
    ((ws.flatMap (fun w => leBytes 4 w.toNat)).drop (va.toNat % 4)).take n)

/-- Bytes of one word written at system scope. -/
def State.fePut (s : State) (pw : PWord) (o : Nat) (bs : List Byte) : State :=
  if pw.kind = 2 then s.poolPut pw (setBytes (memWord s.mem (pwKey pw)) o bs) false
  else s.homeWrite pw (fun w => setBytes w o bs) (bs.length ≥ 4)

/-- Bytes written at system scope: none where a word cannot be written. -/
def State.feWrite (s : State) (asid : BitVec 16) (kinds : List Nat) (va : Dword) (bs : List Byte) : Option State :=
  (List.range ((va.toNat % 4 + bs.length + 3) / 4)).foldl (fun (acc : Option State) j =>
    acc.bind (fun s =>
      let a := va - BitVec.ofNat 64 (va.toNat % 4) + BitVec.ofNat 64 (4 * j)
      let p := pieceOf va bs j
      (s.feWord asid kinds a).map (fun pw => s.fePut pw p.1 p.2))) (some s)

/-! ### Parts of an object (R265, R266) -/

/-- A little-endian field of a byte string. -/
def field (b : List Byte) (off n : Nat) : Nat := leNat ((b.drop off).take n)
/-- Every byte of a range is zero. -/
def zeroed (b : List Byte) (off n : Nat) : Bool := ((b.drop off).take n).all (fun x => x == 0)

/-- The header of an object (R265). -/
structure ObjHead where
  nnodes : Nat
  nedges : Nat
  nrel : Nat
  edgeOff : Nat
  relOff : Nat
  nodeOff : Nat
  codeOff : Nat
  codeSz : Nat
  deriving DecidableEq, Repr

/-- A header whose own fields keep the limits of R265, none where they do not. DESIGN CHOICE, log entry 87: EDGEOFF and RELOFF of an
empty part are not bounded. -/
def objHead (b : List Byte) : Option ObjHead :=
  let h : ObjHead := { nnodes := field b 6 2, nedges := field b 8 4, nrel := field b 12 4, edgeOff := field b 16 8,
                       relOff := field b 24 8, nodeOff := field b 32 8, codeOff := field b 40 8, codeSz := field b 48 8 }
  let parts := ([(0, 64), (h.nodeOff, 128 * h.nnodes), (h.edgeOff, 2 * h.nedges), (h.relOff, 8 * h.nrel)] : List (Nat × Nat)).filter
    (fun p => p.2 != 0)
  let apart := parts.all (fun p => p.1 + p.2 ≤ h.codeOff && parts.all (fun q => p == q || p.1 + p.2 ≤ q.1 || q.1 + q.2 ≤ p.1))
  let once := (parts.map (fun p => p.1)).Nodup
  if field b 0 4 == 0x58524701 && field b 4 2 == 1 && zeroed b 56 8 && 1 ≤ h.nnodes && h.nnodes ≤ 1024
      && h.nodeOff % 64 == 0 && h.codeOff % 64 == 0 && h.codeSz % 64 == 0 && h.codeOff + h.codeSz ≤ 2 ^ 57 && apart && once
  then some h else none

/-- A node record (R266). `head` is the launch header's 64 bytes. -/
structure GNode where
  head : List Byte
  type : Nat
  nflags : Nat
  npred : Nat
  first : Nat
  nsucc : Nat
  param : Dword
  paramsz : Nat
  callee : Dword
  deriving DecidableEq, Repr

/-- Node record `k` of an object. -/
def gnode (b : List Byte) (k : Nat) : GNode :=
  let r := (b.drop (field b 32 8 + 128 * k)).take 128
  { head := r.take 64, type := field r 64 1, nflags := field r 65 1, npred := field r 66 2, first := field r 68 4,
    nsucc := field r 72 2, param := BitVec.ofNat 64 (field r 80 8), paramsz := field r 88 4,
    callee := BitVec.ofNat 64 (field r 96 8) }

/-- Nodes of an object. -/
def nodeCount (b : List Byte) : Nat := field b 6 2
/-- Entry `k` of the edge array. -/
def edgeAt (b : List Byte) (k : Nat) : Nat := field b (field b 16 8 + 2 * k) 2
/-- The successors of node `k`. -/
def successors (b : List Byte) (k : Nat) : List Nat :=
  let n := gnode b k
  (List.range n.nsucc).map (fun j => edgeAt b (n.first + j))
/-- Node `k` depends on these nodes. -/
def predecessors (b : List Byte) (k : Nat) : List Nat :=
  (List.range (nodeCount b)).filter (fun j => (successors b j).contains k)
/-- The edges that lead into node `k`. -/
def edgesInto (b : List Byte) (k : Nat) : Nat :=
  ((List.range (nodeCount b)).map (fun j => (successors b j).count k)).foldl (· + ·) 0

/-- What is left of a set of nodes when those without a predecessor in it are taken away, again and again. -/
def peel (b : List Byte) : Nat → List Nat → List Nat
  | 0, l => l
  | n + 1, l => peel b n (l.filter (fun k => (predecessors b k).any (fun j => l.contains j)))

/-- The reserved fields of a node record are zero, and its fields keep their limits (R266). -/
def nodeOk (b : List Byte) (k : Nat) : Bool :=
  let r := (b.drop (field b 32 8 + 128 * k)).take 128
  let n := gnode b k
  n.type ≤ 2 && (n.type == 0 || zeroed r 0 64) && n.nflags ≤ 1 && zeroed r 74 6 && n.paramsz % 8 == 0 && zeroed r 92 4
    && (n.type == 1 || n.callee == 0) && zeroed r 104 24 && n.first + n.nsucc ≤ field b 8 4
    && (k != 0 || n.npred == 0) && n.npred == edgesInto b k

/-- A relocation entry (R267). -/
def relOk (b : List Byte) (k : Nat) : Bool :=
  let x := field b (field b 24 8 + 8 * k) 8
  x / 2 ^ 37 == 0 && bitsOf x 0 32 % 64 == 0 && bitsOf x 0 32 + 64 ≤ field b 48 8 && bitsOf x 32 3 ≤ 4 && bitsOf x 35 2 ≤ 2

/-- The checks for queue error 8 on an object whose bytes below the code image are `b` (R268). -/
def objectOk (b : List Byte) : Bool :=
  let n := nodeCount b
  (List.range (field b 8 4)).all (fun k => edgeAt b k < n) && (List.range n).all (nodeOk b) && (peel b n (List.range n)).isEmpty
    && (List.range (field b 12 4)).all (relOk b)

/-! ### Launch headers (R255 to R257) -/

/-- A launch header as its 64 bytes give it, with its code addresses moved by the object's base. -/
def launchHeader (b : List Byte) (base : Dword) : Header :=
  { wgEntry := BitVec.ofNat 64 (field b 0 8) + base, seedEntry := BitVec.ofNat 64 (field b 8 8) + base
    bowlEntry := if field b 16 8 = 0 then 0 else BitVec.ofNat 64 (field b 16 8) + base
    widths := (List.range (field b 30 1)).map (fun k => field b (24 + k) 1)
    wgb := field b 31 1, gb := field b 32 1, coloc := field b 33 1, regs := field b 34 2, scratch := field b 36 4
    seedScr := field b 40 4, stack := field b 44 4, pri := field b 48 1, pinned := field b 49 1 % 2 == 1 }

/-- The form of R33 for an offset of code. -/
def codeForm (x : Nat) : Bool := x % 64 ≤ 4

/-- A launch header that keeps R255 to R257. -/
def headerOk (b : List Byte) : Bool :=
  let h := launchHeader b 0
  let nf := h.widths.length
  codeForm (field b 0 8) && codeForm (field b 8 8) && codeForm (field b 16 8)
    && 1 ≤ nf && nf ≤ 6 && h.widths.headD 0 ≥ 5 && h.total ≤ 64 && zeroed b (24 + nf) (6 - nf)
    && h.wgb ≤ h.gb && h.gb ≤ nf && 5 ≤ h.bound h.wgb && h.bound h.wgb ≤ 9 && h.bound h.gb ≤ h.bound h.wgb + 12
    && h.coloc ≤ 5 && (h.coloc != 0 || h.gb == h.wgb) && h.regs % 8 == 0 && 8 ≤ h.regs && h.regs ≤ 1024
    && h.scratch % 1024 == 0 && h.scratch ≤ 262144 && h.seedScr % 1024 == 0 && h.seedScr ≤ 262144 && h.stack % 1024 == 0
    && h.pri ≤ 7 && field b 49 1 ≤ 1 && zeroed b 50 14

/-- Every kernel node's header keeps its rules. -/
def headersOk (b : List Byte) : Bool :=
  (List.range (nodeCount b)).all (fun k => (gnode b k).type != 0 || headerOk (gnode b k).head)

/-! ### Relocation (R267) -/

/-- The immediate of a slot that a relocation names: its lowest bit and its width. -/
def relField (f : Nat) : Nat × Nat := if f = 0 then (7, 48) else if f = 1 then (9, 32) else (2, 32)

/-- PAR of a line computed anew (R29). -/
def fixParity (l : BitVec 512) : BitVec 512 :=
  (List.range 16).foldl (fun (l : BitVec 512) j =>
    if parityBit l j == l.getLsbD (480 + j) then l else l ^^^ (1 <<< (480 + j))) l

/-- A line with the object base added to one immediate. -/
def relocate (l : BitVec 512) (slot f : Nat) (base : Dword) : BitVec 512 :=
  let (lo, w) := relField f
  let at_ := 96 * slot + lo
  let old := bitsOf l.toNat at_ w
  fixParity (BitVec.ofNat 512 (l.toNat - old * 2 ^ at_ + (old + base.toNat) % 2 ^ w * 2 ^ at_))

/-- One relocation entry applied to the code image in memory. -/
def State.applyRel (s : State) (asid : BitVec 16) (base : Dword) (codeOff x : Nat) : State :=
  let a := base + BitVec.ofNat 64 (codeOff + bitsOf x 0 32)
  match s.feRead asid [0] a 64 with
  | none => s
  | some bs =>
    let l := relocate (BitVec.ofNat 512 (leNat bs)) (bitsOf x 32 3) (bitsOf x 35 2) base
    (s.feWrite asid [0] a (leBytes 64 l.toNat)).getD s

/-! ### The graph table (R268) -/

/-- The handle of an entry. -/
def State.graphHandle (s : State) (k : Nat) : Dword := BitVec.ofNat 64 ((s.graph k).gen % 65536 * 2 ^ 48 + k % 4096)
/-- The entry that a handle names. -/
def State.graphOf (s : State) (h : Dword) : Option Nat :=
  let k := h.toNat % 4096
  if (s.graph k).used && s.graphHandle k == h then some k else none
def State.setGraph (s : State) (k : Nat) (g : Graph) : State := { s with graphs := s.graphs.put k g }
/-- A free entry. -/
def State.freeGraph (s : State) : Option Nat := (List.range 4096).find? (fun k => !(s.graph k).used)

/-- The object at an address as it stands in memory: its bytes below the code image, and the whole. -/
def State.readObject (s : State) (asid : BitVec 16) (base : Dword) : Option (List Byte × List Byte) :=
  if base.toNat % 64 ≠ 0 then none
  else match (s.feRead asid [0] base 64).bind objHead with
    | none => none
    | some h => match s.feRead asid [0] base (h.codeOff + h.codeSz) with
      | none => none
      | some b => some (b.take h.codeOff, b)

/-- Registration (R268): the queue error, or the entry that the object gets. -/
def State.register (s : State) (asid : BitVec 16) (base : Dword) : Except Nat Nat × State :=
  match s.readObject asid base with
  | none => (.error 8, s)
  | some (b, _) =>
    if !objectOk b then (.error 8, s)
    else if !headersOk b then (.error 1, s)
    else match s.freeGraph with
      | none => (.error 9, s)
      | some k =>
        let codeOff := field b 40 8
        let rels := (List.range (field b 12 4)).map (fun j => field b (field b 24 8 + 8 * j) 8)
        let s := rels.foldl (fun s x => s.applyRel asid base codeOff x) s
        let image := ((s.readObject asid base).map (fun x => x.2)).getD []
        (.ok k, s.setGraph k { s.graph k with used := true, base := base, asid := asid, image := image, unregister := false })

/-- The object of a registered graph stands as it was registered: none of its words was written. The loss of a word's data and
a change of its translation are no writes. -/
def State.graphIntact (s : State) (k : Nat) : Bool :=
  let g := s.graph k
  (List.range (g.image.length / 4)).all (fun j =>
    match s.feWord g.asid [0] (g.base + BitVec.ofNat 64 (4 * j)) with
    | none => true
    | some pw => (s.homeWord pw).2 || leBytes 4 (s.homeWord pw).1.toNat == (g.image.drop (4 * j)).take 4)

end Sys2Proof.Machine
end

