-- ==== Sys2Proof/Machine/FrontEnd.lean ====
section
/-!
DEFINITION. Hardware queues and kicks (R272 to R276), replays of graphs (R269, R271), the start of a node (R259, R264, R270)
and the completion of a launch (R261, R270).
-/

namespace Sys2Proof.Machine

/-! ### Queues (R272, R273) -/

/-- The start of the golden firmware runs no kernels (R329). -/
def State.recovering (s : State) : Bool := getBits s.crown.fwstat 4 4 == 4
def Queue.on (x : Queue) : Bool := bit x.qcfg 63
def Queue.mode (x : Queue) : Nat := getBits x.qcfg 61 2
def Queue.logn (x : Queue) : Nat := getBits x.qring 0 4
def Queue.asid (x : Queue) : BitVec 16 := BitVec.ofNat 16 (getBits x.qcfg 40 16)
/-- The ring holds a kick that has not been taken. -/
def Queue.ringFull (x : Queue) : Bool :=
  x.on && 1 ≤ x.logn && x.logn ≤ 12 && getBits x.qidx 0 32 != getBits x.qidx 32 32
/-- The ring address of the next kick. -/
def Queue.ringSlot (x : Queue) : Nat := getBits x.qring 8 56 * 256 + 64 * (getBits x.qidx 32 32 % 2 ^ x.logn)

/-- The next kick of a queue: none where there is none, and its bytes where they can be read. DESIGN CHOICE, log entry 90: kicks that
stand in the FIFO when EN is cleared or MODE is changed are still taken, ahead of a ring; those of a ring are not taken with EN = 0. -/
def State.nextKick (s : State) (q : Nat) : Option (Option (List Byte)) :=
  let x := s.queue q
  if q ≥ 64 || s.recovering then none
  else match x.fifo with
    | b :: _ => some (some b)
    | [] =>
      if x.mode = 1 ∧ x.ringFull then some (some (memRead s.hostMem x.ringSlot 64))
      else if x.mode = 2 ∧ x.ringFull then some (s.feRead x.asid [2] (BitVec.ofNat 64 x.ringSlot) 64)
      else none

/-- The next kick taken. One of a ring in host memory was read by RDMA under QKEY (R272, R273). -/
def State.popKick (s : State) (q : Nat) : State :=
  let x := s.queue q
  match x.fifo with
  | _ :: rest => s.setQueue q { x with fifo := rest }
  | [] =>
    let s := if x.mode = 1
      then s.send (.ringRead (getBits x.qkey 32 24) (BitVec.ofNat 32 (getBits x.qkey 0 32)) x.ringSlot) else s
    s.setQueue q { x with qidx := putBits x.qidx 32 32 (getBits x.qidx 32 32 + 1) }

/-- Fields of a kick (R274). -/
def kickType (b : List Byte) : Nat := field b 0 1
def kickSeq (b : List Byte) : Word := BitVec.ofNat 32 (field b 4 4)
def kickTarget (b : List Byte) : Dword := BitVec.ofNat 64 (field b 8 8)
/-- A kick that is malformed whatever its handle. -/
def kickBad (b : List Byte) : Bool :=
  kickType b > 2 || !zeroed b 1 3 || field b 24 2 > 4096 || field b 26 1 > 2 || !zeroed b 27 5

/-- KICK_SLOT_WRITE (R273). -/
def execKickSlotWrite (q : Nat) (bytes : List Byte) (s : State) : Out :=
  let x := s.queue q
  .next (if q ≥ 64 || bytes.length ≠ 64 || !x.on || x.mode ≠ 0 then { s with fe := { s.fe with errors := s.fe.errors + 1 } }
    else if x.fifo.length ≥ 64 then
      s.raise { type := 6, queue := q, node := 0xFFFF, kseq := kickSeq bytes, code := 0, handle := 0, detail := 0 }
    else s.setQueue q { x with fifo := x.fifo ++ [bytes] })

/-- QIDX_PROD_WRITE (R273). -/
def execQidxProdWrite (q : Nat) (prod : Word) (s : State) : Out := .next (if q ≥ 64 then s else s.putProd q prod)

/-- QCFG_WRITE (R272, R304). -/
def execQcfgWrite (q : Nat) (v : Dword) (s : State) : Out := .next (if q ≥ 64 then s else s.putQcfg q v)

/-- A kick that is malformed, or cannot be read, is taken and reported. -/
def State.refuseKick (s : State) (q : Nat) (kseq : Word) (code : Nat) (handle : Dword) : State :=
  (s.popKick q).raise (qerror q 0xFFFF kseq code handle)

/-! ### Replays (R269) -/

def State.setReplay (s : State) (r : Nat) (x : Replay) : State := { s with replays := s.replays.put r x }
/-- The object that a replay runs. -/
def State.imageOf (s : State) (r : Nat) : List Byte := (s.graph (s.replay r).graph).image
/-- A replay of a graph is under way. -/
def State.inReplay (s : State) (k : Nat) : Bool := s.replays.any (fun p => !p.2.ended && p.2.graph == k)

def Replay.node (x : Replay) (n : Nat) : NodeSt := x.nodes.getD n .failed
def Replay.setNode (x : Replay) (n : Nat) (st : NodeSt) : Replay := { x with nodes := x.nodes.set n st }

/-- A node is idle and its predecessors have completed. -/
def State.canStart (s : State) (r n : Nat) : Bool :=
  let x := s.replay r
  x.node n == .idle && (predecessors (s.imageOf r) n).all (fun j => x.node j == .done)

/-- An entry leaves the graph table. -/
def State.unregister (s : State) (k : Nat) : State :=
  let g := s.graph k
  s.setGraph k { g with used := false, gen := (g.gen + 1) % 65536, unregister := false, image := [] }

/-- The NODEDONE event of a node that asks for one. -/
def State.nodeEvent (s : State) (r n : Nat) : State :=
  let x := s.replay r
  if (gnode (s.imageOf r) n).nflags % 2 = 1 then
    s.raise { type := 1, queue := x.queue, node := n, kseq := x.kseq, code := 0, handle := s.graphHandle x.graph,
              detail := BitVec.ofNat 64 x.depth }
  else s

/-- Nodes of a replay that ran and that did not, with those of its calls (log entry 29). -/
def Replay.counts (x : Replay) : Nat × Nat :=
  let d := (x.nodes.filter (fun n => n == .done)).length
  (x.ran + d, x.missed + (x.nodes.length - d))

/-- A replay ends when no node runs and none can start. The end of a call completes its node, in the caller's replay. -/
def State.settleReplay (s : State) (r : Nat) : Nat → State
  | 0 => s
  | fuel + 1 =>
    let x := s.replay r
    if x.ended || x.nodes.any (fun n => n == .running) || (List.range x.nodes.length).any (fun n => s.canStart r n) then s
    else
      let (ran, missed) := x.counts
      let handle := s.graphHandle x.graph
      let s := s.setReplay r { x with ended := true }
      let s := if (s.graph x.graph).unregister && !s.inReplay x.graph then s.unregister x.graph else s
      match x.parent with
      | none =>
        s.raise { type := 0, queue := x.queue, node := 0xFFFF, kseq := x.kseq, code := BitVec.ofNat 32 missed, handle := handle,
                  detail := BitVec.ofNat 64 ran }
      | some (p, n) =>
        let y := s.replay p
        let s := s.setReplay p { y.setNode n .done with ran := y.ran + ran, missed := y.missed + missed }
        (s.nodeEvent p n).settleReplay p fuel

/-- A node completes. -/
def State.nodeDone (s : State) (r n : Nat) : State :=
  ((s.setReplay r ((s.replay r).setNode n .done)).nodeEvent r n).settleReplay r 8

/-- A node that meets a queue error does not run (R276). -/
def State.nodeError (s : State) (r n code : Nat) (handle : Dword) : State :=
  let x := s.replay r
  ((s.raise (qerror x.queue n x.kseq code handle)).setReplay r (x.setNode n .failed)).settleReplay r 8

/-- A replay of graph `k` begins. -/
def State.startReplay (s : State) (q : Nat) (kseq : Word) (k depth : Nat) (path : List Nat) (parent : Option (Nat × Nat)) : State :=
  let (id, s) := s.newId
  (s.setReplay id { queue := q, kseq := kseq, handle := s.graphHandle k, graph := k, depth := depth, path := path ++ [k]
                    parent := parent, nodes := List.replicate (nodeCount (s.graph k).image) .idle, ran := 0, missed := 0
                    ended := false }).settleReplay id 8

/-! ### Kicks (R274 to R276) -/

/-- A patch entry: node, offset and value. -/
structure Patch where
  node : Nat
  zero : Bool
  off : Nat
  val : List Byte
  deriving DecidableEq, Repr

def patchAt (b : List Byte) (off : Nat) : Patch :=
  { node := field b off 2, zero := zeroed b (off + 2) 2, off := field b (off + 4) 4, val := (b.drop (off + 8)).take 8 }

/-- The patches of a RUN, inline ones first: none where the table cannot be read. -/
def State.patches (s : State) (asid : BitVec 16) (b : List Byte) : Option (List Patch) :=
  let inl := (List.range (field b 26 1)).map (fun j => patchAt b (32 + 16 * j))
  let n := field b 24 2
  if n = 0 then some inl
  else if field b 16 8 % 8 ≠ 0 then none
  else (s.feRead asid [0, 2] (BitVec.ofNat 64 (field b 16 8)) (16 * n)).map (fun t =>
    inl ++ (List.range n).map (fun j => patchAt t (16 * j)))

/-- A patch names a parameter block of the graph (R275). -/
def patchOk (image : List Byte) (p : Patch) : Bool :=
  let n := gnode image p.node
  p.zero && p.node < nodeCount image && n.param != 0 && p.off % 8 == 0 && p.off + 8 ≤ n.paramsz

/-- The patches written in order: none where a parameter block cannot be written (log entry 29). -/
def State.applyPatches (s : State) (asid : BitVec 16) (image : List Byte) (ps : List Patch) : Option State :=
  ps.foldl (fun (acc : Option State) p => acc.bind (fun s =>
    s.feWrite asid [0, 1, 2] ((gnode image p.node).param + BitVec.ofNat 64 p.off) p.val)) (some s)

/-- Some replay of a queue is under way. -/
def State.queueBusy (s : State) (q : Nat) : Bool := s.replays.any (fun p => !p.2.ended && p.2.queue == q)
/-- A graph is in a replay of another queue. -/
def State.graphBusy (s : State) (q k : Nat) : Bool := s.replays.any (fun p => !p.2.ended && p.2.graph == k && p.2.queue != q)

/-- A RUN whose turn it is: its handle, then its patches, then the replay. -/
def State.runKick (s : State) (q : Nat) (b : List Byte) : State :=
  let asid := (s.queue q).asid
  match s.graphOf (kickTarget b) with
  | none => s.refuseKick q (kickSeq b) 6 (kickTarget b)
  | some k =>
    if s.graphBusy q k then s
    else
      let image := (s.graph k).image
      match (s.patches asid b).bind (fun ps => if ps.all (patchOk image) then s.applyPatches asid image ps else none) with
      | none => s.refuseKick q (kickSeq b) 7 (kickTarget b)
      | some t => (t.popKick q).startReplay q (kickSeq b) k 0 [] none

/-- KICK_RUN (R273, R275). It takes malformed kicks as well. DESIGN CHOICE, log entry 86: the error of a ring entry that cannot be
read has no kick, and its KSEQ is 0. -/
def execKickRun (q : Nat) (s : State) : Out :=
  .next (match s.nextKick q with
    | none => s
    | some none => s.refuseKick q 0 10 0
    | some (some b) =>
      if kickType b = 1 ∨ kickType b = 2 then s
      else if kickBad b then s.refuseKick q (kickSeq b) 10 0
      else if s.queueBusy q then s
      else s.runKick q b)

/-- KICK_REGISTER (R268, R275). -/
def execKickRegister (q : Nat) (s : State) : Out :=
  .next (match s.nextKick q with
    | some (some b) =>
      if kickType b ≠ 1 then s
      else if kickBad b then s.refuseKick q (kickSeq b) 10 0
      else match s.register (s.queue q).asid (kickTarget b) with
        | (.error e, s) => s.refuseKick q (kickSeq b) e 0
        | (.ok k, s) =>
          (s.popKick q).raise { type := 5, queue := q, node := 0xFFFF, kseq := kickSeq b, code := 0,
                                handle := s.graphHandle k, detail := 0 }
    | _ => s)

/-- KICK_UNREGISTER (R275): a graph in a replay leaves the table when the replay ends. -/
def execKickUnregister (q : Nat) (s : State) : Out :=
  .next (match s.nextKick q with
    | some (some b) =>
      if kickType b ≠ 2 then s
      else if kickBad b then s.refuseKick q (kickSeq b) 10 0
      else match s.graphOf (kickTarget b) with
        | none => s.refuseKick q (kickSeq b) 6 (kickTarget b)
        | some k =>
          let s := s.popKick q
          if s.inReplay k then s.setGraph k { s.graph k with unregister := true } else s.unregister k
    | _ => s)

/-! ### The start of a node (R259, R264, R269 to R271) -/

/-- The cores of unit `u` of a level whose dies work (R27). -/
def State.unitCores (s : State) (level u : Nat) : List Nat :=
  ((List.range (nodeSpan level)).map (fun j => u * nodeSpan level + j)).filter (fun c => !(s.die (dieOf c)).failed)

/-- How many workgroups of a launch an empty core holds (R12). -/
def Header.perCore (h : Header) : Nat :=
  let n := min (32 / h.warps) (2048 / (h.warps * h.regs))
  if h.scratch = 0 then n else min n (262144 / h.scratch)

/-- Some empty unit of the co-location level holds a whole gang (R264). -/
def State.gangFits (s : State) (h : Header) : Bool :=
  (List.range (512 / nodeSpan h.coloc)).any (fun u => h.gangSize ≤ (s.unitCores h.coloc u).length * h.perCore)

/-- The queue error that a kernel node meets, in the order of R276. -/
def State.launchError (s : State) (q : Queue) (h : Header) : Option Nat :=
  if h.pinned && !bit q.qcfg 60 then some 11
  else if h.perCore = 0 then some 2
  else if !s.gangFits h then some 3
  else if h.stack > s.astStksz q.asid || (h.stack != 0 && (s.astStkn q.asid == 0 || s.astStksz q.asid == 0)) then some 12
  else none

/-- Every L1 and L2 drops its clean copies of an address space (R270). -/
def State.dropClean (s : State) (asid : BitVec 16) : State :=
  { s with copies := s.copies.filterMap (fun (c : Copy) =>
      if c.node.level ≤ 1 && (c.st == .s || c.st == .e) && c.key.asid == asid.toNat then
        (if c.pf = 0 then none else some { c with st := .i, val := none })
      else some c) }

/-- A kernel node's launch begins: its seed is pending (R260, R261). -/
def State.startLaunch (s : State) (r n : Nat) (node : GNode) : State :=
  let x := s.replay r
  let q := s.queue x.queue
  let h := launchHeader node.head (s.graph x.graph).base
  match s.launchError q h with
  | some e => s.nodeError r n e (s.graphHandle x.graph)
  | none =>
    let (id, s) := s.newId
    let (win, s) := s.choose (2 ^ 27 * 9)
    let s := s.dropClean q.asid
    (s.setReplay r (x.setNode n .running)).setLaunch id
      { queue := x.queue, replay := r, node := n, kseq := x.kseq, handle := s.graphHandle x.graph, hdr := h, asid := q.asid
        param := node.param, pri := min h.pri (getBits q.qcfg 36 3), counter := 0, pending := [], since := s.clock
        stkn := s.astStkn q.asid, stksz := s.astStksz q.asid, stkbase := s.astStkbase q.asid
        wswin := BitVec.ofNat 64 (win / 9 * 2 ^ 30 + win % 9), seedPlaced := false, lostGroups := 0, complete := false }

/-- A call node starts a replay of its callee, one level deeper (R271). -/
def State.startCall (s : State) (r n : Nat) (node : GNode) : State :=
  let x := s.replay r
  let own := s.graphHandle x.graph
  if x.depth + 1 ≥ 5 then s.nodeError r n 4 own
  else match s.graphOf node.callee with
    | none => s.nodeError r n 6 node.callee
    | some k =>
      if x.path.contains k then s.nodeError r n 5 own
      else (s.setReplay r (x.setNode n .running)).startReplay x.queue x.kseq k (x.depth + 1) x.path (some (r, n))

/-- NODE_START (R269). The object of a registered graph that was written gives undefined launches (R268). -/
def execNodeStart (replay node : Nat) (s : State) : Out :=
  let x := s.replay replay
  if x.ended || !s.canStart replay node || s.fe.quiesce || s.recovering then .next s
  else if !s.graphIntact x.graph then .fault .graphWritten
  else
    let n := gnode (s.imageOf replay) node
    .next (if n.type = 0 then s.startLaunch replay node n
      else if n.type = 1 then s.startCall replay node n
      else s.nodeDone replay node)

/-! ### The completion of a launch (R261, R270) -/

/-- The dirty copies of an address space's coherent words. -/
def State.dirtyOf (s : State) (asid : BitVec 16) : List Copy :=
  s.copies.filter (fun (c : Copy) => c.node.level ≤ 1 && isDirty c.st && c.val.isSome && c.key.asid == asid.toNat
    && c.key.pw.kind != 2)
/-- Every span of an address space that a chain holds in W pushed to its home. -/
def State.pushSpace (s : State) (asid : BitVec 16) : State :=
  (s.dirtyOf asid).foldl (fun s (c : Copy) =>
    s.performWord { core := c.node.idx * nodeSpan c.node.level, lvl := c.node.level } 6 c.key) s

/-- The streams of a launch. -/
def State.hartsOf (s : State) (l : Nat) : List Nat := (s.allHarts.filter (fun h => h.pl.launch == l)).map (fun h => h.id)

/-- LAUNCH_COMPLETE (R261, R270): the counter has reached 0, every command and every issued store of the launch has ended,
and its address space's unpushed spans go home, where a poisoned word is rebuilt first (R342). Then its node is complete. -/
def execLaunchComplete (launch : Nat) (s : State) : Out :=
  let x := s.launch launch
  .next (if x.complete || !x.seedPlaced || x.counter != 0
        || s.cmds.any (fun c => (s.group c.group).launch == launch) then s
    else
      let s := (s.hartsOf launch).foldl (fun s h => s.onHart h State.drain) s
      if (s.hartsOf launch).any (fun h => (s.hart? h).any (fun h => !h.m.stores.isEmpty)) then s
      else match (s.dirtyOf x.asid).filter (fun c => s.poisonWaits c.key.pw) with
        | [] => ((s.pushSpace x.asid).setLaunch launch { x with complete := true }).nodeDone x.replay x.node
        | lost => lost.foldl (fun s c => s.askRebuild none c.key.pw) s)

end Sys2Proof.Machine
end

