-- ==== Sys2Proof/Machine/Records.lean ====
section
/-!
DEFINITION. Context records and Bowler records (R321 to R324, R339): their bytes, their place in the reserved area, and what a
resumption reads back from them (R320). VERSION is the context version of FWSTAT (R328).
-/

namespace Sys2Proof.Machine

/-! ### Context records (R321 to R324, R339) -/

/-- A Bool list as bytes, the first in bit 0. -/
def boolBytes (n : Nat) (f : Nat → Bool) : List Byte :=
  leBytes n ((List.range (8 * n)).foldl (fun acc k => acc + bnat (f k) * 2 ^ k) 0)
/-- Bytes padded with zeros to `n`. -/
def padTo (n : Nat) (bs : List Byte) : List Byte := bs ++ List.replicate (n - bs.length) 0
def dwords (l : List Dword) : List Byte := l.flatMap (fun x => leBytes 8 x.toNat)

/-- The code address of a warp's next instruction: a warp that has arrived at a barrier goes on after it. -/
def resumePc (h : Hart) : Dword := if h.c.arrivedBar || h.c.arrivedGang then nextPc h.c.pc else h.c.pc

/-- The trap state of a warp record (R339). -/
def trapBytes (h : Hart) : List Byte :=
  dwords ([h.t.tpc, h.t.tstat, h.t.tskid, h.t.tsfov] ++ h.t.tscr.toList ++ (List.range 8).map h.t.side.word)
    ++ padTo 128 (dwords ((h.m.sfrecs.take 4).flatMap SfRec.words))

/-- A warp record (R323). -/
def warpBytes (h : Hart) : List Byte :=
  padTo 2048 (
    dwords [resumePc h, h.y.flg, h.y.slim, h.y.sptr, h.y.wswin, h.y.ppoll] ++ leBytes 4 h.c.em.toNat
    ++ boolBytes 1 (fun k => h.r.getB k) ++ leBytes 1 h.c.joins.length ++ leBytes 3 (h.m.mx.length * 64)
    ++ leBytes 1 (bnat h.c.hold + bnat h.c.priv * 2 + bnat h.live * 4) ++ leBytes 6 0
    ++ (List.range 16).flatMap (fun k => leBytes 4 (h.r.getP k).toNat) ++ boolBytes 16 (fun k => h.r.fullS k)
    ++ padTo 192 (h.c.joins.flatMap (fun j => leBytes 8 j.addr.toNat ++ leBytes 4 j.mask.toNat))
    ++ (List.range 128).flatMap (fun k => leBytes 8 (h.r.getS k).toNat) ++ trapBytes h)

/-- The vector section of a warp (R321). -/
def vectorBytes (regs : Nat) (h : Hart) : List Byte :=
  padTo (alignUp (regs * 130 + regs / 8) 128) (
    (List.range regs).flatMap (fun v => (h.r.getV v).lanes.toList.flatMap (fun x => leBytes 4 x.toNat))
    ++ (List.range regs).flatMap (fun v => leBytes 2 (h.r.getV v).tag.toNat)
    ++ boolBytes (regs / 8) (fun v => h.r.fullV v))

/-- The warps of a workgroup in order, the retired ones too. -/
def State.groupWarps (s : State) (g : Nat) : List Hart :=
  (List.range (s.group g).nwarps).map (fun w =>
    (s.allHarts.find? (fun h => h.role == .warp && h.pl.group == g && h.pl.widx == w)).getD Hart.idle)

/-- A workgroup has arrived at its gang's barrier: every live warp of it has (R297). -/
def arrivedWhole (ws : List Hart) : Bool :=
  ws.any (fun h => h.live) && (ws.filter (fun h => h.live)).all (fun h => h.c.arrivedGang)

/-- The header of a context record (R322). -/
def State.headerBytes (s : State) (g : Nat) : List Byte :=
  let x := s.group g
  let ws := s.groupWarps g
  padTo 256 (
    leBytes 4 0x58435401 ++ leBytes 2 s.crown.ctxVer ++ leBytes 1 x.nwarps
    ++ leBytes 1 (bnat x.pinned + bnat x.bound * 2 + bnat (arrivedWhole ws) * 4 + bnat x.seed * 8)
    ++ leBytes 8 x.wgnum ++ leBytes 8 x.launch ++ leBytes 2 x.asid.toNat ++ leBytes 2 x.regs ++ leBytes 4 x.scratchSize
    ++ leBytes 2 x.core ++ leBytes 1 x.slot ++ leBytes 1 (x.bcount.getD 0)
    ++ boolBytes 2 (fun w => (ws[w]?).any (fun h => h.c.arrivedBar)) ++ leBytes 1 x.posts.length ++ leBytes 1 0
    ++ dwords ([x.mctl, x.hbase, x.cring, x.crcons] ++ x.epw.toList ++ x.epc.toList))
  ++ padTo 256 (x.posts.flatMap (fun p =>
    leBytes 8 p.payload.toNat ++ leBytes 1 p.pri ++ leBytes 1 p.tok
      ++ leBytes 1 (((s.hart? p.hart).map (fun h => h.pl.widx)).getD 0) ++ leBytes 5 0))

/-- A workgroup's context record (R321). -/
def State.contextBytes (s : State) (g : Nat) : List Byte :=
  let x := s.group g
  let ws := s.groupWarps g
  s.headerBytes g ++ ws.flatMap warpBytes ++ ws.flatMap (vectorBytes x.regs) ++ memRead x.scratch 0 x.scratchSize

/-- A descriptor of a Bowler record. -/
def descBytes (d : Option Desc) : List Byte :=
  match d with
  | none => leBytes 32 0
  | some d => padTo 32 (dwords [d.addr, d.stride, BitVec.ofNat 64 (d.k + d.rows * 2 ^ 24)] ++ leBytes 1 d.mf ++ leBytes 1 d.scale.toNat)

/-- A Bowler record (R324). -/
def State.bowlerBytes (s : State) (h : Hart) : List Byte :=
  let cl := clusterOf h.pl.core
  let x := s.cluster cl
  let b := h.bow
  padTo 2048 (
    padTo 256 (
      leBytes 4 0x58435402 ++ leBytes 2 s.crown.ctxVer ++ leBytes 2 cl ++ dwords [h.c.pc, h.y.flg, b.eflg, b.rp]
      ++ boolBytes 1 (fun k => h.r.getB k) ++ leBytes 1 b.rstack.length
      ++ leBytes 1 (bnat b.stopped + bnat b.descA.isSome * 2 + bnat b.descB.isSome * 4) ++ leBytes 5 0
      ++ padTo 64 (dwords b.rstack.reverse) ++ descBytes b.descA ++ descBytes b.descB ++ dwords [x.btr0, x.btr1, x.btr2])
    ++ (List.range 128).flatMap (fun k => leBytes 8 (h.r.getS k).toNat)
    ++ b.tiles.toList.flatMap (fun t => leBytes 2 t.tag.toNat))
  ++ b.tiles.toList.flatMap (fun t => t.elems.toList.flatMap (fun e => leBytes 4 e.toNat))

/-! ### Records in the reserved area (R317, log entry 19) -/

/-- The words of a stream's scalar registers that failed correction, as offsets from its register S0. -/
def badScalars (h : Hart) : List Nat := h.r.sbad.flatMap (fun n => [8 * n, 8 * n + 4])
/-- The offsets of a context record's words that hold lost data. -/
def State.contextBads (s : State) (g : Nat) : List Nat :=
  let x := s.group g
  let vrec := alignUp (x.regs * 130 + x.regs / 8) 128
  ((List.range x.nwarps).zip (s.groupWarps g)).flatMap (fun p => (badScalars p.2).map (fun o => 512 + 2048 * p.1 + 336 + o))
    ++ x.scratchBad.map (fun o => 512 + (2048 + vrec) * x.nwarps + o)

/-- Where record `n` lies in local HBM: firmware's choice, at a multiple of 256 bytes. -/
def recordBase (n : Nat) : Nat := Config.saveArea n % 2 ^ 38 / 256 * 256
/-- A record written, with the words whose data is lost. -/
def State.putRecord (s : State) (n : Nat) (bs : List Byte) (bads : List Nat) : State :=
  let t := s.hbmPut (recordBase n) bs
  { t with memBad := bads.foldl (fun l o => addNat l (pwKey { kind := 0, peer := 0, off := recordBase n + o })) t.memBad }
/-- The context record of a workgroup written. -/
def State.putContext (s : State) (g : Nat) : State := s.putRecord g (s.contextBytes g) (s.contextBads g)
/-- The record of a Bowler stream written. -/
def State.putBowler (s : State) (h : Hart) : State :=
  s.putRecord h.id (s.bowlerBytes h) ((badScalars h).map (fun o => 256 + o))

/-- A field of record `n`. -/
def State.recNat (s : State) (n off len : Nat) : Nat := leNat (s.homeBytes 0 0 (recordBase n + off) len)
/-- A 64-bit field of record `n`. -/
def State.rec64 (s : State) (n off : Nat) : Dword := BitVec.ofNat 64 (s.recNat n off 8)
/-- A word of record `n`. -/
def State.rec32 (s : State) (n off : Nat) : Word := BitVec.ofNat 32 (s.recNat n off 4)
/-- Bit `k` of the bytes from `off` on. -/
def State.recBit (s : State) (n off k : Nat) : Bool := s.recNat n (off + k / 8) 1 / 2 ^ (k % 8) % 2 == 1
/-- The data of the word at an offset that is a multiple of 4 was lost. -/
def State.recBad (s : State) (n off : Nat) : Bool := (s.homeWord { kind := 0, peer := 0, off := recordBase n + off }).2
/-- The running image accepts the version of record `n` (R324). -/
def State.recordOk (s : State) (n : Nat) : Bool := s.crown.running.accepts.contains (s.recNat n 4 2)

/-! ### A record read back (R320, R339) -/

/-- The scalar registers of a record whose S0 stands at `off`. -/
def State.readScalars (s : State) (n off : Nat) (r : Regs) : Regs :=
  { r with s := Vector.ofFn (fun (k : Fin 128) => s.rec64 n (off + 8 * k))
           sbad := (List.range 128).filter (fun k => s.recBad n (off + 8 * k) || s.recBad n (off + 8 * k + 4)) }

/-- A side-buffer entry whose 64-bit words are those of a function (R335). -/
def sideAt (f : Nat → Dword) : Side :=
  { vaddr := f 0, lanes := BitVec.ofNat 32 (getBits (f 1) 0 32), cls := BitVec.ofNat 4 (getBits (f 1) 32 4), pair := bit (f 1) 36
    reason := BitVec.ofNat 8 (getBits (f 1) 40 8), kind := BitVec.ofNat 4 (getBits (f 1) 48 4)
    fn := BitVec.ofNat 6 (getBits (f 1) 56 6), icls := BitVec.ofNat 4 (getBits (f 2) 0 4), lkind := f 4 ++ f 3, pc := f 5
    detail := f 6 }

/-- A store-fault record whose 64-bit words are those of a function: none where its VALID bit is 0 (R336). -/
def sfRecAt (f : Nat → Dword) : Option SfRec :=
  if bit (f 3) 63 then
    some { pc := f 0, va := f 1, lanes := BitVec.ofNat 32 (getBits (f 2) 0 32), kind := BitVec.ofNat 4 (getBits (f 2) 32 4)
           fn := BitVec.ofNat 6 (getBits (f 2) 40 6), icls := BitVec.ofNat 4 (getBits (f 2) 48 4)
           slot := BitVec.ofNat 5 (getBits (f 2) 56 5), issued := BitVec.ofNat 32 (getBits (f 3) 0 32), kept := true }
  else none

/-- The trap state of a warp's record, which begins at `off` (R339). Reserved fields read as zero, whatever the record holds (R4). -/
def State.readTrap (s : State) (n off : Nat) : TrapRegs :=
  { tpc := s.rec64 n off, tstat := s.rec64 n (off + 8) &&& tstatFields, tskid := s.rec64 n (off + 16) &&& tskidFields
    tsfov := s.rec64 n (off + 24) &&& 0xFFFFFFFF
    tscr := Vector.ofFn (fun (k : Fin 4) => s.rec64 n (off + 32 + 8 * k))
    side := sideAt (fun k => s.rec64 n (off + 64 + 8 * k)), undo := none }
/-- The store-fault records of a warp's record. -/
def State.readSfRecs (s : State) (n off : Nat) : List SfRec :=
  (List.range 4).filterMap (fun k => sfRecAt (fun j => s.rec64 n (off + 128 + 32 * k + 8 * j)))

/-- Vector register `v` of a vector section that begins at `off`. Data that was lost gives the tag POISON (R340). -/
def State.readVReg (s : State) (n off regs v : Nat) : VReg :=
  { lanes := Vector.ofFn (fun (l : Fin 32) => s.rec32 n (off + 128 * v + 4 * l))
    tag := if (List.range 32).any (fun l => s.recBad n (off + 128 * v + 4 * l)) then poisonTag
      else BitVec.ofNat 12 (s.recNat n (off + 128 * regs + 2 * v) 2)
    full := s.recBit n (off + 130 * regs) v }

/-- The code address before one: `nextPc` leads back. -/
def prevPc (pc : Dword) : Dword := if slotOf pc = 0 then pc - 60 else pc - 1

/-- A warp as its record and its vector section give it. One that has arrived at a barrier still waits there (R298), no slot that it
comes to is checked (R34), and reserved fields read as zero (R4). -/
def State.readWarp (s : State) (g : Nat) (h : Hart) : Hart :=
  let x := s.group g
  let off := 512 + 2048 * h.pl.widx
  let vec := 512 + 2048 * x.nwarps + alignUp (x.regs * 130 + x.regs / 8) 128 * h.pl.widx
  let atBar := s.recBit g 36 h.pl.widx
  let atGang := s.recBit g 7 2 || h.c.arrivedGang
  let pc := s.rec64 g off
  let r := s.readScalars g (off + 336) h.r
  { h with
    r := { r with
      sfull := Vector.ofFn (fun (k : Fin 128) => s.recBit g (off + 128) k)
      v := Vector.ofFn (fun (v : Fin 1024) => if v.val < x.regs then s.readVReg g vec x.regs v else h.r.getV v)
      p := Vector.ofFn (fun (k : Fin 16) => s.rec32 g (off + 64 + 4 * k))
      b := Vector.ofFn (fun (k : Fin 8) => s.recBit g (off + 52) k) }
    c := { h.c with
      pc := if atBar || atGang then prevPc pc else pc, em := s.rec32 g (off + 48), hold := s.recBit g (off + 57) 0
      priv := s.recBit g (off + 57) 1, arriving := false, arrivedBar := atBar, arrivedGang := atGang
      joins := (List.range (min (s.recNat g (off + 53) 1) 16)).map (fun k =>
        { addr := s.rec64 g (off + 144 + 12 * k), mask := s.rec32 g (off + 152 + 12 * k) })
      wait := if atBar || atGang then h.c.wait else none }
    y := { flg := s.rec64 g (off + 8) &&& flgFields, slim := s.rec64 g (off + 16) &&& slimMask, sptr := s.rec64 g (off + 24)
           wswin := s.rec64 g (off + 32) &&& wswinFields, ppoll := s.rec64 g (off + 40) &&& 0xFFFFFFFF }
    t := s.readTrap g (off + 1360)
    m := { h.m with sfrecs := s.readSfRecs g (off + 1360) } }

/-- A workgroup as its record gives it: the header, its reserved fields zero (R4), the recorded reservations and the scratchpad
image. -/
def State.readGroup (s : State) (g : Nat) : Group :=
  let x := s.group g
  let img := 512 + (2048 + alignUp (x.regs * 130 + x.regs / 8) 128) * x.nwarps
  let x := { x with scratch := [] }.scratchPut 0 (s.homeBytes 0 0 (recordBase g + img) x.scratchSize)
  { x with
    scratchBad := ((List.range (x.scratchSize / 4)).filter (fun k => s.recBad g (img + 4 * k))).map (fun k => 4 * k)
    wgnum := s.recNat g 8 8, asid := BitVec.ofNat 16 (s.recNat g 24 2)
    bcount := if s.recNat g 36 2 = 0 then none else some (s.recNat g 35 1)
    mctl := s.rec64 g 40 &&& 1, hbase := s.rec64 g 48 &&& ~~~ 4095#64, cring := s.rec64 g 56 &&& cringMask, crcons := s.rec64 g 64
    epw := Vector.ofFn (fun (k : Fin 4) => s.rec64 g (72 + 8 * k) &&& epwMask)
    epc := Vector.ofFn (fun (k : Fin 4) => s.rec64 g (104 + 8 * k) &&& epcMask)
    posts := ((List.range x.posts.length).zip x.posts).map (fun p =>
      let at_ := 256 + 16 * p.1
      { p.2 with payload := s.rec64 g at_, pri := s.recNat g (at_ + 8) 1, tok := s.recNat g (at_ + 9) 1
                 hart := ((s.groupWarps g)[s.recNat g (at_ + 10) 1]?.map (fun h => h.id)).getD p.2.hart }) }

/-- A descriptor of a Bowler record, where the flag says that it is set. -/
def State.readDesc (s : State) (n off : Nat) (isSet : Bool) : Option Desc :=
  if isSet then
    some { addr := s.rec64 n off, stride := s.rec64 n (off + 8), k := getBits (s.rec64 n (off + 16)) 0 24
           rows := getBits (s.rec64 n (off + 16)) 24 40, mf := s.recNat n (off + 24) 1, scale := BitVec.ofNat 8 (s.recNat n (off + 25) 1) }
  else none

/-- A tile of a Bowler record. Data that was lost gives the tag POISON (R340). -/
def State.readTile (s : State) (n t : Nat) : Tile :=
  let off := 2048 + 16384 * t
  { elems := Vector.ofFn (fun (k : Fin 4096) => s.rec32 n (off + 4 * k))
    tag := if (List.range 4096).any (fun k => s.recBad n (off + 4 * k)) then poisonTag else BitVec.ofNat 12 (s.recNat n (1280 + 2 * t) 2) }

/-- A saved Bowler stream goes on as its record gives it (R168, R324), reserved fields zero (R4) and its slot unchecked (R34). -/
def State.readBowler (s : State) (h : Hart) : State :=
  let n := h.id
  let cl := clusterOf h.pl.core
  let x := s.cluster cl
  let bow : Bowler := { h.bow with
    eflg := s.rec64 n 24 &&& 0xFF, rp := s.rec64 n 32 &&& rpMask, saved := false
    rstack := ((List.range (min (s.recNat n 41 1) 8)).map (fun k => s.rec64 n (48 + 8 * k))).reverse
    stopped := s.recBit n 42 0, descA := s.readDesc n 112 (s.recBit n 42 1), descB := s.readDesc n 144 (s.recBit n 42 2)
    tiles := Vector.ofFn (fun (t : Fin 8) => s.readTile n t) }
  let r := s.readScalars n 256 h.r
  let r := { r with b := Vector.ofFn (fun (k : Fin 8) => s.recBit n 40 k) }
  let h' : Hart := { h with
    live := true, r := r, c := { h.c with pc := s.rec64 n 8, arriving := false }, y := { h.y with flg := s.rec64 n 16 &&& flgFields }, bow := bow }
  (s.setCluster cl { x with btr0 := s.rec64 n 176 &&& btr0Fields, btr1 := s.rec64 n 184, btr2 := s.rec64 n 192 }).updHart n (fun _ => h')

end Sys2Proof.Machine
end

