-- ==== Sys2Proof/Machine/Placement.lean ====
section
/-!
DEFINITION. The distributor: what a core still holds (R12, R234, R290), the order of placement (R281), hold-back (R282), the
placement of seeds and gangs (R258 to R260, R264), and the start of Bowler streams (R136, R137). The unit is the event's
choice (R281, log entry 20).
-/

namespace Sys2Proof.Machine

/-! ### Room (R12, R290) -/

/-- A workgroup holds its resources of a core: until its banks are exchanged, or its commands have ended (R234, R316). -/
def State.holdsCore (s : State) (p : Nat × Group) : Bool :=
  match p.2.phase with
  | .resident => true
  | .saving => !p.2.swapDone
  | .saved => false
  | .ended => s.cmds.any (fun c => c.group == p.1)

/-- The workgroups that hold resources of a core. -/
def State.onCore (s : State) (c : Nat) : List Group :=
  (s.groups.filter (fun p => p.2.core == c && s.holdsCore p)).map (fun p => p.2)

/-- What a workgroup asks of a core. -/
structure Need where
  warps : Nat
  regs : Nat
  scratch : Nat
  deriving DecidableEq, Repr

/-- The need of an enqueued workgroup, and of the seed (R260). -/
def Header.need (h : Header) : Need := { warps := h.warps, regs := h.regs, scratch := h.scratch }
def Header.seedNeed (h : Header) : Need := { warps := 1, regs := h.regs, scratch := h.seedScr }
def Group.need (g : Group) : Need := { warps := g.nwarps, regs := g.regs, scratch := g.scratchSize }

/-- Vector registers and scratchpad bytes left by the workgroups given. -/
def vregsLeft (gs : List Group) : Nat := 2048 - (gs.map (fun g => g.nwarps * g.regs)).sum
def scratchLeft (gs : List Group) : Nat := 262144 - (gs.map (fun g => g.scratchSize)).sum
/-- Wave slots `[slot, slot + n)` are free of the workgroups given. -/
def slotsFree (gs : List Group) (slot n : Nat) : Bool :=
  slot + n ≤ 32 && gs.all (fun g => g.slot + g.nwarps ≤ slot || slot + n ≤ g.slot)

/-- A group of those given holds something, beside them, that `n` asks for. -/
def roomFor (gs : List Group) (slot : Nat) (n : Need) : Bool :=
  slotsFree gs slot n.warps && n.warps * n.regs ≤ vregsLeft gs && n.scratch ≤ scratchLeft gs

/-- The lowest slot at which a core with the workgroups given takes `n`. -/
def firstSlot (gs : List Group) (n : Need) : Option Nat := (List.range 32).find? (fun k => roomFor gs k n)

/-- How many workgroups of a need a core takes beside those given, counted up to 32. -/
def capacity (n : Need) : Nat → List Group → Nat
  | 0, _ => 0
  | k + 1, gs => match firstSlot gs n with
    | none => 0
    | some slot =>
      1 + capacity n k ({ Group.zero with slot := slot, nwarps := n.warps, regs := n.regs, scratchSize := n.scratch } :: gs)

/-- A core is reserved for a pinned gang other than `gang`, until that gang ends (R290). -/
def State.pinnedCore (s : State) (gang c : Nat) : Bool :=
  s.groups.any (fun p => p.2.pinned && p.2.gang != gang && p.2.core == c && !s.gangOver p.2.gang)
/-- The cluster takes a workgroup of the launch: no stream of another launch runs there, where the launch has one (R136). -/
def State.bowlerAllows (s : State) (l c : Nat) : Bool :=
  (s.launch l).hdr.bowlEntry == 0 || (match s.bowlerOf (clusterOf c) with
    | some h => h.pl.launch == l
    | none => true)
/-- The reservation serves a launch's gang: the saved one numbered `gang`, or the next new one where `gang` is 0 (R282). -/
def HoldBack.serves (h : HoldBack) (l gang : Nat) : Bool :=
  h.launch == l && h.saved == (if gang = 0 then none else some gang)
/-- Unit that hold-back keeps from the gangs of equal or lower priority, but the one that it serves (R282). -/
def State.heldBack (s : State) (l gang c : Nat) : Bool :=
  match s.fe.hold with
  | none => false
  | some h => !h.serves l gang && (s.launch l).pri ≤ (s.launch h.launch).pri && c / nodeSpan h.level == h.unit

/-- A core may take workgroups of a launch's gang. -/
def State.coreOpen (s : State) (l gang : Nat) (pinned : Bool) (c : Nat) : Bool :=
  !(s.die (dieOf c)).failed && !s.pinnedCore gang c && s.bowlerAllows l c && !s.heldBack l gang c
    && !(pinned && (s.onCore c).any (fun g => g.gang != gang))

/-! ### Stack regions (R259) -/

/-- The regions of an address space that live warps keep. -/
def State.regionsUsed (s : State) (asid : BitVec 16) : List Nat :=
  (s.allHarts.filter (fun h => h.role == .warp && h.live && s.asidOf h == asid)).filterMap (fun h => h.pl.region)
/-- At least `n` regions are free to a launch, of those that its node's start found (R304). -/
def State.regionsFree (s : State) (l n : Nat) : Bool :=
  (s.regionsUsed (s.launch l).asid).length + n ≤ (s.launch l).stkn
/-- The lowest free region: one of the numbers up to the count of those in use. -/
def State.lowestRegion (s : State) (l : Nat) : Option Nat :=
  let used := s.regionsUsed (s.launch l).asid
  ((List.range (used.length + 1)).find? (fun r => !used.contains r)).filter (fun r => r < (s.launch l).stkn)

/-! ### What a launch waits to place -/

/-- The next gang of a launch: how many workgroups, what each asks, its level, and the workgroups of a saved one. -/
structure Want where
  count : Nat
  need : Need
  level : Nat
  gang : Nat
  saved : List Nat
  pinned : Bool
  deriving DecidableEq, Repr

def State.want (s : State) (l : Nat) : Option Want :=
  let x := s.launch l
  if x.complete then none
  else if !x.seedPlaced then some { count := 1, need := x.hdr.seedNeed, level := 0, gang := 0, saved := [], pinned := false }
  else match x.pending with
    | [] => none
    | .range _ _ _ _ _ :: _ =>
      some { count := x.hdr.gangSize, need := x.hdr.need, level := x.hdr.coloc, gang := 0, saved := [], pinned := x.hdr.pinned }
    | .saved g _ :: _ =>
      let gs := (s.gang g).groups.filter (fun k => (s.group k).phase == .saved)
      some { count := gs.length, need := ((gs.head?).map (fun k => (s.group k).need)).getD x.hdr.need, level := (s.gang g).coloc
             gang := g, saved := gs, pinned := (s.gang g).pinned }

/-- A gang fits in unit `u` now: the capacity of its open cores, and the own places of workgroups with endpoints. -/
def State.unitTakes (s : State) (l : Nat) (w : Want) (u : Nat) : Bool :=
  let cs := (s.unitCores w.level u).filter (fun c => s.coreOpen l w.gang w.pinned c)
  let bound := w.saved.filter (fun g => (s.group g).bound)
  bound.all (fun g => cs.contains (s.group g).core && roomFor (s.onCore (s.group g).core) (s.group g).slot w.need)
    && w.count ≤ (cs.map (fun c => capacity w.need 32 (s.onCore c))).sum
    && (match s.fe.hold with
      | some h => !h.serves l w.gang || u == h.unit
      | none => true)

/-- The regions that a first placement needs are free. -/
def State.stackRoom (s : State) (l : Nat) (w : Want) : Bool :=
  !w.saved.isEmpty || (s.launch l).hdr.stack == 0 || s.regionsFree l (w.count * w.need.warps)

/-- The next gang of a launch can be placed now. -/
def State.placeable (s : State) (l : Nat) : Bool :=
  match s.want l with
  | none => false
  | some w => s.stackRoom l w && (List.range (512 / nodeSpan w.level)).any (fun u => s.unitTakes l w u)

/-- The launch whose turn it is: the first in the order of R281 that can be placed. -/
def State.turn (s : State) (l : Nat) : Bool :=
  !s.fe.quiesce && s.powered && s.placeable l
    && s.pendingKeys.all (fun k => !(s.pendingKeys.any (fun m => m.getLast? == some l && ltNats k m)) || (match k.getLast? with
      | some j => !s.placeable j
      | none => true))

/-- The sites given take the gang: in one unit, each with room beside the ones before it (R264). -/
def State.sitesOk (s : State) (l : Nat) (w : Want) (sites : List Site) : Bool :=
  let u := ((sites.head?).map (fun x => x.core)).getD 0 / nodeSpan w.level
  let put := fun (x : Site) => ({ Group.zero with core := x.core, slot := x.slot, nwarps := w.need.warps, regs := w.need.regs, scratchSize := w.need.scratch } : Group)
  sites.length == w.count && s.unitTakes l w u
    && sites.all (fun x => x.core < 512 && x.core / nodeSpan w.level == u && s.coreOpen l w.gang w.pinned x.core)
    && (List.range sites.length).all (fun k =>
      match sites[k]? with
      | none => true
      | some x => roomFor (((sites.take k).filter (fun y => y.core == x.core)).map put ++ s.onCore x.core) x.slot w.need)

/-! ### New work (R136, R137, R258) -/

/-- A Bowler stream of a launch starts on a cluster (R137), or a saved one goes on (R136) from its record, where the running
image accepts it (R324). -/
def State.bowlerFor (s : State) (l cl : Nat) : State :=
  let x := s.launch l
  if x.hdr.bowlEntry = 0 ∨ (s.bowlerOf cl).isSome then s
  else match s.allHarts.find? (fun h => h.role == .bowler && h.bow.saved && h.pl.launch == l && clusterOf h.pl.core == cl) with
    | some h => if s.recordOk h.id then s.readBowler h else s
    | none =>
      let (id, s) := s.newId
      let r := (Regs.zero.setS 1 x.param).setS 2 (BitVec.ofNat 64 cl)
      let h : Hart := { Hart.idle with
        id := id, role := .bowler, live := true
        pl := { Place.zero with core := 4 * cl, launch := l, regs := 0 }
        r := r, c := { Control.zero with pc := x.hdr.bowlEntry, arriving := true }
        y := { SysRegs.zero with wswin := x.wswin }
        sch := { unpicked := 0, lastPick := none, created := s.clock, skid := none }
        bow := { Bowler.zero with schk := s.astFlags x.asid % 2 == 1 } }
      State.setLaunch { s with harts := s.harts ++ [h] } l { x with counter := x.counter + 1 }

/-- A warp of a launch at its beginning (R258, R259); its entry is an arrival that is checked (R34). -/
def State.newWarp (s : State) (l g : Nat) (x : Group) (w : Nat) (arg : Dword) : State :=
  let la := s.launch l
  let region := if la.hdr.stack = 0 then none else s.lowestRegion l
  let top := match region with
    | none => 0
    | some r => la.stkbase + (r + 1) * la.stksz
  let (id, s) := s.newId
  let r := ((Regs.zero.setS 1 la.param).setS 2 arg).setS 3 (BitVec.ofNat 64 w)
  let h : Hart := { Hart.idle with
    id := id, role := .warp, live := true
    pl := { core := x.core, slot := x.slot + w, group := g, launch := l, widx := w, regs := x.regs
            wid0 := BitVec.ofNat 64 (if x.seed then 0 else x.wgnum * 2 ^ la.hdr.bound la.hdr.wgb + 32 * w), region := region }
    r := if x.seed then r.setB 0 true else r
    c := { Control.zero with pc := if x.seed then la.hdr.seedEntry else la.hdr.wgEntry, arriving := true }
    y := { SysRegs.zero with
      sptr := BitVec.ofNat 64 top
      slim := if region.isSome then BitVec.ofNat 64 (top - la.hdr.stack) &&& 0x01FFFFFFFFFFFC00 else 0
      wswin := la.wswin }
    sch := { unpicked := 0, lastPick := none, created := s.clock, skid := none } }
  { s with harts := s.harts ++ [h] }

/-- A workgroup of a launch begins at a site: its context (R186, R304, R306) and its warps. -/
def State.newGroup (s : State) (l gang wgnum : Nat) (seed : Bool) (n : Need) (x : Site) (arg : Dword) : Nat × State :=
  let la := s.launch l
  let (g, s) := s.newId
  let y : Group := { Group.zero with
    launch := l, gang := gang, wgnum := wgnum, core := x.core, slot := x.slot, nwarps := n.warps, regs := n.regs, asid := la.asid
    seed := seed, pinned := !seed && la.hdr.pinned, scratchSize := n.scratch
    mctl := BitVec.ofNat 64 (s.astFlags la.asid % 2), hbase := s.astHbase la.asid &&& ~~~ 4095#64 }
  (g, (List.range n.warps).foldl (fun s w => s.newWarp l g y w arg) (s.setGroup g y))

/-- The warps of new workgroups acquire at the scope of their enqueue (R262). -/
def State.acquireGroups (s : State) (gs : List Nat) (sc : Scope) (succ : Nat) : State :=
  ((s.allHarts.filter (fun h => h.role == .warp && h.live && gs.contains h.pl.group)).map (fun h => h.id)).foldl
    (fun s h => s.onHart h (fun s => s.acquireFor sc succ)) s

/-- The clusters of the sites. -/
def siteClusters (sites : List Site) : List Nat := (sites.map (fun x => clusterOf x.core)).dedup

/-- The reservation of a gang that is placed ends. -/
def State.dropHold (s : State) (l gang : Nat) : State :=
  if s.fe.hold.any (fun h => h.serves l gang) then { s with fe := { s.fe with hold := none } } else s

/-- The seed is placed: the counter becomes 1 (R260, R261). -/
def State.placeSeed (s : State) (l : Nat) (x : Site) : State :=
  let la := s.launch l
  let (gang, s) := s.newId
  let s := s.setLaunch l { la with seedPlaced := true, counter := 1 }
  let (g, s) := s.newGroup l gang 0 true la.hdr.seedNeed x 0
  { s with gangs := s.gangs.put gang { launch := l, groups := [g], coloc := 0, pinned := false, saveAsked := false, stopping := false } }

/-- The next gang of a range is placed (R263). -/
def State.placeGang (s : State) (l first n : Nat) (arg : Dword) (sc : Scope) (born : Nat) (sites : List Site) : State :=
  let la := s.launch l
  let size := la.hdr.gangSize
  let (gang, s) := s.newId
  let rest := la.pending.drop 1
  let s := s.setLaunch l { la with
    pending := if n ≤ size then rest else .range (first + size) (n - size) arg sc born :: rest }
  let (gs, s) := ((List.range size).zip sites).foldl (fun (acc : List Nat × State) (p : Nat × Site) =>
    let (g, s) := acc.2.newGroup l gang (first + p.1) false la.hdr.need p.2 arg
    (acc.1 ++ [g], s)) ([], s)
  let x : Gang := { launch := l, groups := gs, coloc := la.hdr.coloc, pinned := la.hdr.pinned, saveAsked := false, stopping := false }
  let s := { s with gangs := s.gangs.put gang x }
  s.acquireGroups gs sc 3

/-- GANG_PLACEMENT (R281): the next pending gang of a launch is placed whole at the sites given, where it is the launch's turn
and they take it. A saved gang is resumed by GANG_RESUME. -/
def execGangPlacement (launch : Nat) (sites : List Site) (s : State) : Out :=
  let x := s.launch launch
  .next (match s.want launch with
    | none => s
    | some w =>
      if !s.turn launch || !s.sitesOk launch w sites then s
      else
        let t := if !x.seedPlaced then (match sites with
            | site :: _ => some (s.placeSeed launch site)
            | [] => none)
          else match x.pending with
            | .range first n arg sc born :: _ => some (s.placeGang launch first n arg sc born sites)
            | _ => none
        match t with
        | none => s
        | some t => (siteClusters sites).foldl (fun s c => s.bowlerFor launch c) (t.dropHold launch 0))

/-- Free wave slots of a unit. -/
def State.freeSlots (s : State) (level u : Nat) : Nat :=
  ((s.unitCores level u).map (fun c => 32 - ((s.onCore c).map (fun g => g.nwarps)).sum)).sum

/-- HOLDBACK_RESERVE (R282): for the gang that has been the oldest for long enough, of the units that could hold the gang when empty, the one with the most free wave slots is
reserved, the lowest of equals. -/
def execHoldbackReserve (s : State) : Out :=
  .next (match s.oldestLaunch with
    | none => s
    | some l => match s.want l with
      | none => s
      | some w =>
        if s.fe.hold.isSome || s.clock < s.fe.oldestAt + 262144 || s.fe.oldest != s.oldestName then s
        else
          let us := (List.range (512 / nodeSpan w.level)).filter (fun u =>
            w.count ≤ (s.unitCores w.level u).length * capacity w.need 32 [])
          match leastBy (fun a b => decide (s.freeSlots w.level a > s.freeSlots w.level b)) us with
          | none => s
          | some u => { s with fe := { s.fe with hold := some { launch := l, saved := if w.gang = 0 then none else some w.gang, level := w.level, unit := u } } })

end Sys2Proof.Machine
end

