-- ==== Sys2Proof/Machine/Preempt.lean ====
section
/-!
DEFINITION. Pre-emption: time slices (R288), the save of a gang (R316 to R319), context records (R321 to R324, R339) and the
resumption of a saved gang (R283, R320).
-/

namespace Sys2Proof.Machine

/-! ### The save (R316 to R318) -/

/-- GANG_SAVE (R316): the front end or a supervisor saves a gang. -/
def execGangSave (gang : Nat) (s : State) : Out :=
  .next (if (s.gangIn gang .resident).isEmpty then s else s.startSave gang)

/-- BANK_SWAP_COMPLETE (R316): on each core, after 48 clocks in which their cores issue nothing, the regions have changed banks. -/
def execBankSwapComplete (gang : Nat) (s : State) : Out :=
  let gs := (s.gangIn gang .saving).filter (fun g => !(s.group g).swapDone)
  .next ((gs.filter (fun g => (s.core (s.group g).core).cclk ≥ (s.core (s.group g).core).busyUntil)).foldl (fun s g =>
    s.setGroup g { s.group g with swapDone := true }) s)

/-- A register of a stopped warp has what the engine reads: it is full, or it is the token of a recorded post. -/
def regsRead (x : Group) (h : Hart) : Bool :=
  (List.range 128).all (fun n => h.r.fullS n || x.posts.any (fun p => p.hart == h.id && p.tok == n))
    && (List.range h.pl.regs).all (fun n => h.r.fullV n)

/-- SPILL_COMPLETE (R317): every register is full, the region is written to its record, and its shadow copy is free. -/
def execSpillComplete (group : Nat) (s : State) : Out :=
  let x := s.group group
  .next (if x.phase == .saving && x.swapDone && !x.spilled
        && (s.warpsOf group).all (fun h => h.m.returning.isEmpty && regsRead x h) then
      ((s.putContext group).setGroup group { x with spilled := true }).retrySaves
    else s)

/-- The executing warp's stores of before the stop are performed at package scope at least (R318). -/
def State.finishWarp (s : State) : State := s.drain.pushAll s.me 5

/-- Every condition of R318 holds for a workgroup. -/
def State.savedNow (s : State) (g : Nat) : Bool :=
  (s.group g).spilled && !s.cmds.any (fun c => c.group == g)
    && (s.warpsOf g).all (fun h => h.m.returning.isEmpty && h.m.stores.isEmpty && h.m.cp.isEmpty && h.m.ga.isEmpty && h.m.fb.isEmpty)
    && !(s.cluster (clusterOf (s.group g).core)).entries.any (fun p => p.2.st == .taken && p.2.group == g)

/-- A saved gang re-enters its launch's list behind the gangs that were saved before it (R283). DESIGN CHOICE, log entry 88: R281
does not say from when its age counts; it counts from the clock of its save. -/
def requeue (gang clock : Nat) : List Pending → List Pending
  | .saved g b :: rest => .saved g b :: requeue gang clock rest
  | l => .saved gang clock :: l

/-- The Bowler stream of a launch leaves a cluster with the last workgroup of the launch there (R288). -/
def State.saveBowler (s : State) (l cl : Nat) : State :=
  match s.bowlerOf cl with
  | none => s
  | some h =>
    if h.pl.launch != l || s.groups.any (fun p => p.2.launch == l && clusterOf p.2.core == cl
        && (p.2.phase == .resident || p.2.phase == .saving)) then s
    else (s.putBowler h).updHart h.id (fun h => { h with live := false, bow := { h.bow with saved := true } })

/-- SAVE_COMPLETE (R318): the save of a gang is reported as a whole. -/
def execSaveComplete (gang : Nat) (s : State) : Out :=
  let gs := s.gangIn gang .saving
  let ids := (s.allHarts.filter (fun h => h.role == .warp && h.live && gs.contains h.pl.group)).map (fun h => h.id)
  let t := ids.foldl (fun s h => s.onHart h State.finishWarp) s
  .next (if gs.isEmpty || !(s.gangIn gang .resident).isEmpty || !gs.all t.savedNow then s
    else
      let t := gs.foldl (fun s g => (s.putContext g).setGroup g { s.group g with phase := .saved }) t
      let l := (s.gang gang).launch
      let t := t.setLaunch l { t.launch l with pending := requeue gang s.clock (t.launch l).pending }
      ((gs.map (fun g => clusterOf (s.group g).core)).dedup).foldl (fun s cl => s.saveBowler l cl) t)

/-! ### The resumption (R283, R320) -/

/-- A saved workgroup filled into a region from its record. -/
def State.fillGroup (s : State) (g : Nat) (x : Site) : State :=
  let read := s.readWarp g
  let s := s.setGroup g { s.readGroup g with core := x.core, slot := x.slot, phase := .resident, swapDone := false, spilled := false, postsAt := s.clock }
  s.mapHarts (fun h => if h.role == .warp && h.live && h.pl.group == g then { read h with pl := { h.pl with core := x.core, slot := x.slot + h.pl.widx } } else h)

/-- The saved Bowler streams of a launch go on, each on its own cluster. -/
def State.restoreBowlers (s : State) (l : Nat) : State :=
  let hs := s.allHarts.filter (fun h => h.role == .bowler && h.bow.saved && h.pl.launch == l)
  hs.foldl (fun s h => s.bowlerFor l (clusterOf h.pl.core)) s

/-- GANG_RESUME (R320): the oldest saved gang of a launch resumes whole, under the rules of placement, where the
running image accepts its records (R324). A workgroup with a bound endpoint takes its own place (R245). Recorded posts reach the table now, as new posts that MPOST_ADMIT admits in their turn
(R141, R147). -/
def execGangResume (gang : Nat) (sites : List Site) (s : State) : Out :=
  let l := (s.gang gang).launch
  .next (match (s.launch l).pending, s.want l with
    | .saved g _ :: rest, some w =>
      let own := (w.saved.zip sites).all (fun (p : Nat × Site) =>
        !(s.group p.1).bound || (p.2.core == (s.group p.1).core && p.2.slot == (s.group p.1).slot))
      if g != gang || !(s.launch l).seedPlaced || !s.turn l || !s.sitesOk l w sites || !own || !w.saved.all s.recordOk then s
      else
        let s := (s.setLaunch l { s.launch l with pending := rest }).dropHold l gang
        let s := (w.saved.zip sites).foldl (fun s (p : Nat × Site) => s.fillGroup p.1 p.2) s
        let s := s.acquireGroups w.saved .pkg 0x17
        (siteClusters sites).foldl (fun s c => s.bowlerFor l c) (s.restoreBowlers l)
    | _, _ => s)

/-! ### Time slices (R288) -/

/-- Another queue's work waits for room, of the priority given or a higher one. -/
def State.otherWaits (s : State) (q pri : Nat) : Bool :=
  s.launches.any (fun p => p.2.queue != q && p.2.pri ≥ pri && (s.want p.1).isSome && !s.placeable p.1)

/-- SLICE_EXPIRY (R288). -/
def execSliceExpiry (q : Nat) (s : State) : Out :=
  let x := s.queue q
  .next (if getBits x.qcfg 0 32 = 0 || x.slice < getBits x.qcfg 0 32 * 1024 then s
    else
      let s := s.setQueue q { x with slice := 0 }
      let mine := s.gangs.filter (fun p => !p.2.pinned && (s.launch p.2.launch).queue == q && !(s.gangIn p.1 .resident).isEmpty)
      let pri := mine.foldl (fun n p => max n (s.launch p.2.launch).pri) 0
      if s.otherWaits q pri then mine.foldl (fun s p => s.startSave p.1) s else s)

end Sys2Proof.Machine
end

