-- ==== Sys2Proof/Machine/Crown.lean ====
section
/-!
DEFINITION. Crown (R325 to R329): starts, measured release of images, watchdogs, firmware updates and attestation; and the
plain writes of device registers (R5). Digests and signatures are free values (log entry 16).
-/

namespace Sys2Proof.Machine

/-! ### Clocks and slots -/

/-- STATE of FWSTAT set. -/
def Crown.setState (c : Crown) (n : Nat) : Crown := { c with fwstat := putBits c.fwstat 4 4 n }

/-! ### Release (R325, R326) -/

/-- The processors: four front-end queue processors, the fabric manager core and the power-and-thermal core, by image. -/
def imageProcs (k : Nat) : List Nat := if k = 0 then [0, 1, 2, 3] else if k = 1 then [4] else [5]
/-- The image that a processor runs. -/
def procImage (p : Nat) : Nat := if p < 4 then 0 else if p = 4 then 1 else 2

/-- Steps 3 and 4: signature, key and security version. -/
def Crown.partOk (c : Crown) (p : Part) : Bool :=
  Config.slhVerify p.key p.sig p.code && Config.sha256 p.key == c.fuseKey && decide (p.secver ≥ c.fuseMin)

/-- One image measured, and released to its processors where it is accepted; the Bool says that it was. -/
def Crown.release (c : Crown) (now : Nat) (img : Image) (k : Nat) (procs : List Nat) : Bool × Crown :=
  match img.parts[k]? with
  | none => (false, { c with meas := c.meas.put (3 + k) (Config.sha256 []) })
  | some p =>
    let c := { c with meas := c.meas.put (3 + k) (Config.sha256 p.code) }
    if c.partOk p then
      (true, { c with released := c.released ++ procs.filter (fun x => !c.released.contains x)
                      kicks := procs.foldl (fun m x => m.put x now) c.kicks })
    else (false, c)

/-- The three images of a slot measured and released in order; the Bool says that none was refused. -/
def Crown.releaseAll (c : Crown) (now : Nat) (img : Image) : Bool × Crown :=
  (List.range 3).foldl (fun (acc : Bool × Crown) k =>
    let (ok, c) := acc.2.release now img k (imageProcs k)
    (acc.1 && ok, c)) (true, c)

/-- Measurements 6 and 7: firmware state and context version (R326). -/
def Crown.measureState (c : Crown) : Crown :=
  let state := leBytes 1 c.flashActive ++ leBytes 1 (bnat (c.state == 2)) ++ leBytes 1 c.flashFails
  { c with meas := (c.meas.put 6 (Config.sha256 state)).put 7 (Config.sha256 (leBytes 1 c.ctxVer)) }

/-! ### Starts (R329) -/

/-- What outlasts a start: the flash and the fuses, what lies outside the package, and the model's own counters. HBM keeps its
contents across a warm start (log entry 30). -/
def State.restart (s : State) (warm : Bool) : State :=
  let keeps := fun (k : Nat) => k / 2 ^ 60 == 1 || k / 2 ^ 60 == 2 || (warm && k / 2 ^ 60 == 0)
  let c := s.crown
  { State.reset with
    mem := s.mem.filter (fun x => keeps x.1), memBad := s.memBad.filter keeps, homeVer := s.homeVer, version := s.version
    crown := { Crown.zero with
      fuseKey := c.fuseKey, fuseMin := c.fuseMin, flashFails := c.flashFails, flashActive := c.flashActive, golden := c.golden
      slotA := c.slotA, slotB := c.slotB, meas := if warm then c.meas.filter (fun x => x.1 ≤ 2) else [] }
    fe := { FrontEnd.zero with nextSeq := if warm then s.fe.nextSeq else 0 }
    powered := s.powered, hostMem := s.hostMem, out := s.out, agenda := s.agenda, fresh := s.fresh
    nextId := s.nextId }

/-- Steps 1 and 6 of a start: FAILS rises, and the images of the active slot, or after three failures of the golden one, are
measured, verified and released. A refusal ends the start with every processor in reset. -/
def State.boot (s : State) : State :=
  let now := s.crownNow
  let c := s.crown
  let recovery := c.flashFails ≥ 3
  let c := { c with flashFails := min (c.flashFails + 1) 255 }
  let c := if recovery then c.setState 4 else c
  let img := if recovery then c.golden else c.slot c.flashActive
  let (ok, c) := c.releaseAll now img
  let c := { c with fwstat := putBits c.fwstat 16 8 img.ctxVer }
  s.setCrown { c.measureState with startAt := if ok then some now else none, released := if ok then c.released else [] }

/-- The fuse values: the digest of the key, the least security version, and the others (R325, R326). -/
def Crown.fuseValues (c : Crown) : List Byte := leBytes 32 c.fuseKey.toNat ++ leBytes 8 c.fuseMin ++ Config.fuseBytes

/-- COLD_START (R329). -/
def execColdStart (s : State) : Out :=
  let s := { s.restart false with powered := true }
  let c := s.crown
  let m := (c.meas.put 1 (Config.sha256 Config.crownRom)).put 2 (Config.sha256 c.fuseValues)
  .next (s.setCrown { c with meas := m }).boot

/-- WARM_START (R329): reset with power held. -/
def execWarmStart (s : State) : Out := .next (if s.powered then (s.restart true).boot else s)

/-- The Crown clocks within which READY.UP ends a start (R329). -/
def startWindow : Nat := 3000000000
/-- A start fails: the processors are in reset. -/
def Crown.startFailed (c : Crown) : Crown := { c with startAt := none, released := [] }

/-- READY_UP (R329): the start ends, and FAILS is cleared, within its window; later the start has failed. -/
def execReadyUp (s : State) : Out :=
  let c := s.crown
  .next (if !s.powered then s
    else match c.startAt with
      | none => s.setCrown { c with readyUp := true }
      | some t =>
        if s.crownNow ≥ t + startWindow then s.setCrown c.startFailed
        else s.setCrown { (if c.state = 0 then c.setState 1 else c) with
          readyUp := true, startAt := none, flashFails := 0 }.measureState)

/-- START_TIMEOUT (R329): the start fails. -/
def execStartTimeout (s : State) : Out :=
  let c := s.crown
  .next (match c.startAt with
    | some t => if s.crownNow ≥ t + startWindow then s.setCrown c.startFailed else s
    | none => s)

/-- POWER_LOSS (R329): only the flash is kept, and what lies outside the package. -/
def execPowerLoss (s : State) : Out := .next { s.restart false with powered := false }

/-! ### Watchdogs (R325) -/

/-- WDOG_KICK. -/
def execWdogKick (proc : Nat) (s : State) : Out := .next (s.kick proc)

/-- WATCHDOG_EXPIRY: Crown resets a processor that did not write WDOG in time, and releases it anew. The start in progress, if
any, fails. -/
def execWatchdogExpiry (proc : Nat) (s : State) : Out :=
  let c := s.crown
  .next (if c.released.contains proc && c.late s.crownNow proc then
      let c := { c with released := dropNat c.released proc }
      if c.startAt.isSome then s.setCrown c.startFailed
      else s.setCrown (c.release s.crownNow c.running (procImage proc) [proc]).2
    else s)

/-! ### Firmware updates (R328) -/

/-- Every workgroup has left its core. -/
def State.quiet (s : State) : Bool := s.groups.all (fun p => p.2.phase == .saved || p.2.phase == .ended)

/-- A Bowler stream that is still running is saved (R328). -/
def State.stopBowlers (s : State) : State :=
  (s.allHarts.filter (fun h => h.role == .bowler && h.live)).foldl (fun s h =>
    (s.putBowler h).updHart h.id (fun h => { h with live := false, bow := { h.bow with saved := true } })) s

/-- The front end's queues, pending lists and replays written in the version of the active image (R328). -/
def State.writeWork (s : State) : State :=
  { s with fe := { s.fe with record := some {
      version := s.crown.ctxVer, queues := s.queues, pending := s.launches.map (fun p => (p.1, p.2.pending)), replays := s.replays } } }

/-- The record of the front end's work read back by an image that accepts its version. What it holds goes on with what has happened
since it was written, kicks, completions and losses: that is what the queues, lists and replays of State are (log entry 30). -/
def State.readWork (s : State) : State :=
  match s.fe.record with
  | none => s
  | some w => if s.crown.running.accepts.contains w.version then { s with fe := { s.fe with record := none } } else s

/-- Work goes on: the front end reads its record, the streams whose launch still runs are restored, and nodes start again. -/
def State.resumeWork (s : State) : State :=
  let s := { s.readWork with fe := { s.readWork.fe with quiesce := false } }
  (s.launches.filter (fun p => !p.2.complete)).foldl (fun s p => s.restoreBowlers p.1) s

/-- The trial of the inactive slot (R328), once the streams are saved and the front end's work is written. -/
def State.startTrial (s : State) : State :=
  let s := s.stopBowlers.writeWork
  let c := s.crown
  let (ok, c) := { c with released := [] }.releaseAll s.crownNow (c.slot c.inactive)
  if ok then s.setCrown { (c.setState 2).measureState with trialAt := some s.crownNow, prevSlot := c.flashActive }
  else
    let (_, c) := { c with released := [] }.releaseAll s.crownNow (c.slot c.flashActive)
    (s.setCrown (c.setState 1).measureState).resumeWork

/-- FWCTL_UPDATE (R328): the version check and the quiesce; once everything is saved, the trial. DESIGN CHOICE, log entry 89: R328
gives CMD = 1 no effect while STATE is 0, 2, 3 or 4; it does nothing there. -/
def execFwctlUpdate (s : State) : Out :=
  let c := s.crown
  .next (if !s.powered then s
    else if c.state = 5 then (if s.quiet then s.startTrial else s)
    else if c.state ≠ 1 then s
    else if !(c.slot c.inactive).accepts.contains c.ctxVer then s.setCrown (c.setState 1)
    else
      let s := { s.setCrown (c.setState 5) with fe := { s.fe with quiesce := true } }
      (s.gangs.filter (fun p => !(s.gangIn p.1 .resident).isEmpty)).foldl (fun s p => s.startSave p.1) s)

/-- COMMIT_GO (R328): within the trial's window the new image becomes active. -/
def execCommitGo (s : State) : Out :=
  let c := s.crown
  .next (match c.trialAt with
    | some t =>
      if c.state = 2 && s.crownNow < t + c.trial.toNat then
        let c := { c with flashActive := c.inactive, fwstat := putBits c.fwstat 16 8 (c.slot c.inactive).ctxVer, trialAt := none }
        (s.setCrown (c.setState 1).measureState).resumeWork
      else s
    | none => s)

/-- TRIAL_EXPIRY (R328): the processors are reset, and the previous slot is verified and released again. -/
def execTrialExpiry (s : State) : Out :=
  let c := s.crown
  .next (match c.trialAt with
    | some t =>
      if c.state = 2 && s.crownNow ≥ t + c.trial.toNat then
        let c := { c.setState 3 with trialAt := none, released := [] }
        let (ok, c) := c.releaseAll s.crownNow (c.slot c.prevSlot)
        if ok then (s.setCrown (c.setState 1).measureState).resumeWork else s.setCrown c.measureState
      else s
    | none => s)

/-! ### Attestation (R327; the layouts and the transcripts are those of the published standard, log entry 31) -/

/-- A message: version 1.3, its code, two parameters and its body. -/
def spdmMsg (code p1 p2 : Nat) (body : List Byte) : List Byte := leBytes 1 0x13 ++ leBytes 1 code ++ leBytes 1 p1 ++ leBytes 1 p2 ++ body
/-- An error response. -/
def spdmError (code : Nat) : List Byte := spdmMsg 0x7F code 0 []

/-- An answer to a request of the connection's beginning: both enter the transcript of every signature. -/
def State.answer (s : State) (request m : List Byte) : State :=
  (s.setCrown { s.crown with transcript := s.crown.transcript ++ request ++ m }).send (.spdm m)
/-- An answer that needs the algorithms agreed and a request in order, else an error. -/
def State.answerIf (s : State) (ok : Bool) (k : State → State) : State :=
  if !s.crown.negotiated then s.send (.spdm (spdmError 4)) else if ok then k s else s.send (.spdm (spdmError 1))
/-- An answer that the next signature over a challenge covers. -/
def State.answerLater (s : State) (request m : List Byte) : State :=
  (s.setCrown { s.crown with challenges := s.crown.challenges ++ request ++ m }).send (.spdm m)

/-- SPDM_GET_VERSION: version 1.3 alone; a new connection. -/
def execSpdmGetVersion (s : State) : Out :=
  let s := s.setCrown { s.crown with negotiated := false, transcript := [], challenges := [] }
  .next (s.answer (leBytes 1 0x10 ++ leBytes 1 0x84 ++ leBytes 2 0)
    (leBytes 1 0x10 ++ leBytes 1 0x04 ++ leBytes 2 0 ++ leBytes 1 0 ++ leBytes 1 1 ++ leBytes 2 0x1300))

/-- SPDM_GET_CAPABILITIES. The request's bytes after its version and code are the requester's (log entry 17). -/
def execSpdmGetCapabilities (s : State) : Out :=
  .next ({ s with fresh := s.fresh + 1 }.answer (leBytes 1 0x13 ++ leBytes 1 0xE1 ++ Config.spdmRequest s.fresh)
    (spdmMsg 0x61 0 0 (leBytes 1 0 ++ leBytes 1 (Config.spdmSize 0) ++ leBytes 2 0 ++ leBytes 4 Config.spdmCapabilities.toNat
      ++ leBytes 4 (Config.spdmSize 1) ++ leBytes 4 (Config.spdmSize 2))))

/-- SPDM_NEGOTIATE_ALGORITHMS: DMTF measurements by SHA-256, ECDSA on P-384, SHA-384. -/
def execSpdmNegotiateAlgorithms (offer : SpdmOffer) (s : State) : Out :=
  .next (if offer.ecdsaP384 && offer.sha384 && offer.sha256 then
      (s.setCrown { s.crown with negotiated := true }).answer (leBytes 1 0x13 ++ leBytes 1 0xE3 ++ offer.raw)
        (spdmMsg 0x63 0 0 (leBytes 2 36 ++ leBytes 1 1 ++ leBytes 1 0 ++ leBytes 4 0x02 ++ leBytes 4 0x80 ++ leBytes 4 0x02
          ++ leBytes 12 0 ++ leBytes 4 0))
    else s.send (.spdm (spdmError 1)))

/-- The digest of the certificate chain in slot 0. -/
def chainDigest : List Byte := leBytes 48 (Config.sha384 Config.certificateChain).toNat

/-- SPDM_GET_DIGESTS: slot 0 holds a chain. -/
def execSpdmGetDigests (s : State) : Out :=
  .next (s.answerIf true (fun s => s.answerLater (spdmMsg 0x81 0 0 []) (spdmMsg 0x01 1 1 chainDigest)))

/-- SPDM_GET_CERTIFICATE: a portion of the chain in slot 0. -/
def execSpdmGetCertificate (slot off len : Nat) (s : State) : Out :=
  let chain := Config.certificateChain
  let part := (chain.drop off).take len
  .next (s.answerIf (slot == 0 && decide (off ≤ chain.length)) (fun s =>
    s.answerLater (spdmMsg 0x82 slot 0 (leBytes 2 off ++ leBytes 2 len))
      (spdmMsg 0x02 slot 0 (leBytes 2 part.length ++ leBytes 2 (chain.length - off - part.length) ++ part))))

/-- A free nonce of the responder. -/
def State.nonce (s : State) : List Byte × State :=
  (leBytes 32 (Config.freeChoice s.fresh), { s with fresh := s.fresh + 1 })

/-- The characters of a text, one byte each. -/
def asciiBytes (t : String) : List Byte := t.toList.map (fun c => BitVec.ofNat 8 c.toNat)
/-- What the device identity key signs: the version's prefix, the purpose in 36 bytes, and the digest of the messages. -/
def spdmSigned (purpose : String) (msgs : List Byte) : List Byte :=
  (List.replicate 4 (asciiBytes "dmtf-spdm-v1.3.*")).flatten ++ List.replicate (36 - purpose.length) 0 ++ asciiBytes purpose
    ++ leBytes 48 (Config.sha384 msgs).toNat

/-- SPDM_CHALLENGE without a measurement summary: the chain's digest, a nonce, no opaque data, the requester's context and the
signature over the connection's messages. -/
def execSpdmChallenge (slot : Nat) (x : SpdmNonce) (s : State) : Out :=
  let (mine, s) := s.nonce
  .next (s.answerIf (slot == 0) (fun s =>
    let m := spdmMsg 0x03 0 1 (chainDigest ++ mine ++ leBytes 2 0 ++ x.context)
    let c := s.crown
    let msgs := c.transcript ++ c.challenges ++ spdmMsg 0x83 slot 0 (x.nonce ++ x.context) ++ m
    (s.setCrown { c with challenges := [] }).send
      (.spdm (m ++ Config.ecdsaSign (spdmSigned "responder-challenge_auth signing" msgs)))))

/-- The kind of value that a measurement is: immutable ROM, mutable firmware, hardware or firmware configuration. -/
def measType (k : Nat) : Nat := if k = 1 then 0 else if k = 2 then 2 else if k ≤ 5 then 1 else 3
/-- A measurement block: index, SHA-256 digest. -/
def measBlock (k : Nat) (d : BitVec 256) : List Byte :=
  leBytes 1 k ++ leBytes 1 1 ++ leBytes 2 35 ++ leBytes 1 (measType k) ++ leBytes 2 32 ++ leBytes 32 d.toNat

/-- SPDM_GET_MEASUREMENTS with signature: index 0 asks for their number, 255 for all. -/
def execSpdmGetMeasurements (index : Nat) (x : SpdmNonce) (s : State) : Out :=
  let ms := s.crown.meas
  let (mine, s) := s.nonce
  let picked := if index = 0 then [] else if index = 255 then ms else ms.filter (fun y => y.1 == index)
  let blocks := picked.flatMap (fun (y : Nat × BitVec 256) => measBlock y.1 y.2)
  .next (s.answerIf (index == 0 || index == 255 || !picked.isEmpty) (fun s =>
    let m := spdmMsg 0x60 (if index = 0 then ms.length else 0) 0
      (leBytes 1 picked.length ++ leBytes 3 blocks.length ++ blocks ++ mine ++ leBytes 2 0 ++ x.context)
    let msgs := s.crown.transcript ++ spdmMsg 0xE0 1 index (x.nonce ++ leBytes 1 0 ++ x.context) ++ m
    s.send (.spdm (m ++ Config.ecdsaSign (spdmSigned "responder-measurements signing" msgs)))))

/-! ### Plain register writes (R5) -/

/-- REGISTER_WRITE. -/
def execRegisterWrite (unit off : Nat) (v : Dword) (by_ : Writer) (s : State) : Out :=
  .next (s.devPut by_ unit (if unit = 0 then off else off / 8 * 8) v)

end Sys2Proof.Machine
end

