-- ==== Sys2Proof/Machine/Dispatch.lean ====
section
/-!
DEFINITION. One arm per instruction and event: the meaning of each.
-/

namespace Sys2Proof.Machine

def exec (i : Instr) (s : State) : Host.Outcome State Fault Refusal :=
  match i with
  | .nop => Sys2Proof.Machine.execNop s
  | .smov f => Sys2Proof.Machine.execSmov f s
  | .smovi f => Sys2Proof.Machine.execSmovi f s
  | .smoviHi f => Sys2Proof.Machine.execSmoviHi f s
  | .sadd f => Sys2Proof.Machine.execSadd f s
  | .saddi f => Sys2Proof.Machine.execSaddi f s
  | .ssub f => Sys2Proof.Machine.execSsub f s
  | .smul f => Sys2Proof.Machine.execSmul f s
  | .smulh f => Sys2Proof.Machine.execSmulh f s
  | .smulhn f => Sys2Proof.Machine.execSmulhn f s
  | .sdiv f => Sys2Proof.Machine.execSdiv f s
  | .sdivn f => Sys2Proof.Machine.execSdivn f s
  | .srem f => Sys2Proof.Machine.execSrem f s
  | .sand f => Sys2Proof.Machine.execSand f s
  | .sor f => Sys2Proof.Machine.execSor f s
  | .sxor f => Sys2Proof.Machine.execSxor f s
  | .sandn f => Sys2Proof.Machine.execSandn f s
  | .sshl f => Sys2Proof.Machine.execSshl f s
  | .sshr f => Sys2Proof.Machine.execSshr f s
  | .ssra f => Sys2Proof.Machine.execSsra f s
  | .srot f => Sys2Proof.Machine.execSrot f s
  | .smin f => Sys2Proof.Machine.execSmin f s
  | .smax f => Sys2Proof.Machine.execSmax f s
  | .sminn f => Sys2Proof.Machine.execSminn f s
  | .smaxn f => Sys2Proof.Machine.execSmaxn f s
  | .scmp f => Sys2Proof.Machine.execScmp f s
  | .ssel f => Sys2Proof.Machine.execSsel f s
  | .sclz f => Sys2Proof.Machine.execSclz f s
  | .spopc f => Sys2Proof.Machine.execSpopc f s
  | .sbfx f => Sys2Proof.Machine.execSbfx f s
  | .sbfi f => Sys2Proof.Machine.execSbfi f s
  | .slea f => Sys2Proof.Machine.execSlea f s
  | .swid f => Sys2Proof.Machine.execSwid f s
  | .srr f => Sys2Proof.Machine.execSrr f s
  | .srw f => Sys2Proof.Machine.execSrw f s
  | .sbool f => Sys2Proof.Machine.execSbool f s
  | .br f => Sys2Proof.Machine.execBr f s
  | .brc f => Sys2Proof.Machine.execBrc f s
  | .bri f => Sys2Proof.Machine.execBri f s
  | .call f => Sys2Proof.Machine.execCall f s
  | .ret f => Sys2Proof.Machine.execRet f s
  | .loop f => Sys2Proof.Machine.execLoop f s
  | .exit f => Sys2Proof.Machine.execExit f s
  | .msetEm f => Sys2Proof.Machine.execMsetEm f s
  | .msetParked f => Sys2Proof.Machine.execMsetParked f s
  | .park f => Sys2Proof.Machine.execPark f s
  | .join f => Sys2Proof.Machine.execJoin f s
  | .lexit f => Sys2Proof.Machine.execLexit f s
  | .brany f => Sys2Proof.Machine.execBrany f s
  | .brall f => Sys2Proof.Machine.execBrall f s
  | .bar f => Sys2Proof.Machine.execBar f s
  | .barg f => Sys2Proof.Machine.execBarg f s
  | .enq f => Sys2Proof.Machine.execEnq f s
  | .yield f => Sys2Proof.Machine.execYield f s
  | .napc f => Sys2Proof.Machine.execNapc f s
  | .pfh f => Sys2Proof.Machine.execPfh f s
  | .vmov f => Sys2Proof.Machine.execVmov f s
  | .vmovi f => Sys2Proof.Machine.execVmovi f s
  | .vbcast f => Sys2Proof.Machine.execVbcast f s
  | .vlane f => Sys2Proof.Machine.execVlane f s
  | .vadd f => Sys2Proof.Machine.execVadd f s
  | .vsub f => Sys2Proof.Machine.execVsub f s
  | .vmul f => Sys2Proof.Machine.execVmul f s
  | .vmulh f => Sys2Proof.Machine.execVmulh f s
  | .vmulhn f => Sys2Proof.Machine.execVmulhn f s
  | .vmad f => Sys2Proof.Machine.execVmad f s
  | .vand f => Sys2Proof.Machine.execVand f s
  | .vor f => Sys2Proof.Machine.execVor f s
  | .vxor f => Sys2Proof.Machine.execVxor f s
  | .vandn f => Sys2Proof.Machine.execVandn f s
  | .vshl f => Sys2Proof.Machine.execVshl f s
  | .vshr f => Sys2Proof.Machine.execVshr f s
  | .vsra f => Sys2Proof.Machine.execVsra f s
  | .vmin f => Sys2Proof.Machine.execVmin f s
  | .vmax f => Sys2Proof.Machine.execVmax f s
  | .vminn f => Sys2Proof.Machine.execVminn f s
  | .vmaxn f => Sys2Proof.Machine.execVmaxn f s
  | .vabs f => Sys2Proof.Machine.execVabs f s
  | .vcmp f => Sys2Proof.Machine.execVcmp f s
  | .vsel f => Sys2Proof.Machine.execVsel f s
  | .vclz f => Sys2Proof.Machine.execVclz f s
  | .vpopc f => Sys2Proof.Machine.execVpopc f s
  | .vbfx f => Sys2Proof.Machine.execVbfx f s
  | .vbfi f => Sys2Proof.Machine.execVbfi f s
  | .vadds f => Sys2Proof.Machine.execVadds f s
  | .vsubs f => Sys2Proof.Machine.execVsubs f s
  | .vdot4 f => Sys2Proof.Machine.execVdot4 f s
  | .vpermb f => Sys2Proof.Machine.execVpermb f s
  | .vtag f => Sys2Proof.Machine.execVtag f s
  | .vtagrRead f => Sys2Proof.Machine.execVtagrRead f s
  | .vtagrSet f => Sys2Proof.Machine.execVtagrSet f s
  | .fadd f => Sys2Proof.Machine.execFadd f s
  | .fsub f => Sys2Proof.Machine.execFsub f s
  | .fmul f => Sys2Proof.Machine.execFmul f s
  | .ffma f => Sys2Proof.Machine.execFfma f s
  | .ffms f => Sys2Proof.Machine.execFfms f s
  | .fnma f => Sys2Proof.Machine.execFnma f s
  | .fmin f => Sys2Proof.Machine.execFmin f s
  | .fmax f => Sys2Proof.Machine.execFmax f s
  | .fabs f => Sys2Proof.Machine.execFabs f s
  | .fneg f => Sys2Proof.Machine.execFneg f s
  | .fcmp f => Sys2Proof.Machine.execFcmp f s
  | .fclass f => Sys2Proof.Machine.execFclass f s
  | .frnd f => Sys2Proof.Machine.execFrnd f s
  | .fdiv f => Sys2Proof.Machine.execFdiv f s
  | .fsqrt f => Sys2Proof.Machine.execFsqrt f s
  | .frcp f => Sys2Proof.Machine.execFrcp f s
  | .frsq f => Sys2Proof.Machine.execFrsq f s
  | .fexp2 f => Sys2Proof.Machine.execFexp2 f s
  | .flog2 f => Sys2Proof.Machine.execFlog2 f s
  | .fsin f => Sys2Proof.Machine.execFsin f s
  | .fcos f => Sys2Proof.Machine.execFcos f s
  | .ftanh f => Sys2Proof.Machine.execFtanh f s
  | .fsigm f => Sys2Proof.Machine.execFsigm f s
  | .fdot2 f => Sys2Proof.Machine.execFdot2 f s
  | .cvt f => Sys2Proof.Machine.execCvt f s
  | .cvti f => Sys2Proof.Machine.execCvti f s
  | .cvtf f => Sys2Proof.Machine.execCvtf f s
  | .lmul f => Sys2Proof.Machine.execLmul f s
  | .ldiv f => Sys2Proof.Machine.execLdiv f s
  | .lsqr f => Sys2Proof.Machine.execLsqr f s
  | .lsqrt f => Sys2Proof.Machine.execLsqrt f s
  | .lscale f => Sys2Proof.Machine.execLscale f s
  | .lmaxs f => Sys2Proof.Machine.execLmaxs f s
  | .pack f => Sys2Proof.Machine.execPack f s
  | .unpack f => Sys2Proof.Machine.execUnpack f s
  | .lcmp f => Sys2Proof.Machine.execLcmp f s
  | .shfl f => Sys2Proof.Machine.execShfl f s
  | .vote f => Sys2Proof.Machine.execVote f s
  | .vred f => Sys2Proof.Machine.execVred f s
  | .vscan f => Sys2Proof.Machine.execVscan f s
  | .vrdl f => Sys2Proof.Machine.execVrdl f s
  | .vwrl f => Sys2Proof.Machine.execVwrl f s
  | .pcount f => Sys2Proof.Machine.execPcount f s
  | .pmov f => Sys2Proof.Machine.execPmov f s
  | .pfroms f => Sys2Proof.Machine.execPfroms f s
  | .ptos f => Sys2Proof.Machine.execPtos f s
  | .dmask f => Sys2Proof.Machine.execDmask f s
  | .vcmx f => Sys2Proof.Machine.execVcmx f s
  | .vmatch f => Sys2Proof.Machine.execVmatch f s
  | .sld f => Sys2Proof.Machine.execSld f s
  | .sst f => Sys2Proof.Machine.execSst f s
  | .vld f => Sys2Proof.Machine.execVld f s
  | .vst f => Sys2Proof.Machine.execVst f s
  | .vgld f => Sys2Proof.Machine.execVgld f s
  | .vsct f => Sys2Proof.Machine.execVsct f s
  | .lld f => Sys2Proof.Machine.execLld f s
  | .lst f => Sys2Proof.Machine.execLst f s
  | .wld f => Sys2Proof.Machine.execWld f s
  | .tld f => Sys2Proof.Machine.execTld f s
  | .tst f => Sys2Proof.Machine.execTst f s
  | .spush f => Sys2Proof.Machine.execSpush f s
  | .spop f => Sys2Proof.Machine.execSpop f s
  | .vpush f => Sys2Proof.Machine.execVpush f s
  | .vpop f => Sys2Proof.Machine.execVpop f s
  | .satom f => Sys2Proof.Machine.execSatom f s
  | .scas f => Sys2Proof.Machine.execScas f s
  | .vatom f => Sys2Proof.Machine.execVatom f s
  | .vcas f => Sys2Proof.Machine.execVcas f s
  | .fatom f => Sys2Proof.Machine.execFatom f s
  | .latom f => Sys2Proof.Machine.execLatom f s
  | .waita f => Sys2Proof.Machine.execWaita f s
  | .arrw f => Sys2Proof.Machine.execArrw f s
  | .tkreq f => Sys2Proof.Machine.execTkreq f s
  | .tkwait f => Sys2Proof.Machine.execTkwait f s
  | .tkserve f => Sys2Proof.Machine.execTkserve f s
  | .fence f => Sys2Proof.Machine.execFence f s
  | .waitc f => Sys2Proof.Machine.execWaitc f s
  | .drainst f => Sys2Proof.Machine.execDrainst f s
  | .cwb f => Sys2Proof.Machine.execCwb f s
  | .cinv f => Sys2Proof.Machine.execCinv f s
  | .cwbi f => Sys2Proof.Machine.execCwbi f s
  | .pref f => Sys2Proof.Machine.execPref f s
  | .wrsync f => Sys2Proof.Machine.execWrsync f s
  | .waitb f => Sys2Proof.Machine.execWaitb f s
  | .cpy f => Sys2Proof.Machine.execCpy f s
  | .cpy2d f => Sys2Proof.Machine.execCpy2d f s
  | .cpysp f => Sys2Proof.Machine.execCpysp f s
  | .csrwk f => Sys2Proof.Machine.execCsrwk f s
  | .xfer f => Sys2Proof.Machine.execXfer f s
  | .xget f => Sys2Proof.Machine.execXget f s
  | .poolfill f => Sys2Proof.Machine.execPoolfill f s
  | .poolcopy f => Sys2Proof.Machine.execPoolcopy f s
  | .poolcmp f => Sys2Proof.Machine.execPoolcmp f s
  | .poolred f => Sys2Proof.Machine.execPoolred f s
  | .mpost f => Sys2Proof.Machine.execMpost f s
  | .mtake f => Sys2Proof.Machine.execMtake f s
  | .mdone f => Sys2Proof.Machine.execMdone f s
  | .mopa f => Sys2Proof.Machine.execMopa f s
  | .mopb f => Sys2Proof.Machine.execMopb f s
  | .mzero f => Sys2Proof.Machine.execMzero f s
  | .mma f => Sys2Proof.Machine.execMma f s
  | .mmag f => Sys2Proof.Machine.execMmag f s
  | .mldc f => Sys2Proof.Machine.execMldc f s
  | .mstf f => Sys2Proof.Machine.execMstf f s
  | .mstl f => Sys2Proof.Machine.execMstl f s
  | .mprogRead f => Sys2Proof.Machine.execMprogRead f s
  | .mprogSet f => Sys2Proof.Machine.execMprogSet f s
  | .mprogClr f => Sys2Proof.Machine.execMprogClr f s
  | .mtagtRead f => Sys2Proof.Machine.execMtagtRead f s
  | .mtagtSet f => Sys2Proof.Machine.execMtagtSet f s
  | .trap f => Sys2Proof.Machine.execTrap f s
  | .brk f => Sys2Proof.Machine.execBrk f s
  | .rft f => Sys2Proof.Machine.execRft f s
  | .srrp f => Sys2Proof.Machine.execSrrp f s
  | .srwp f => Sys2Proof.Machine.execSrwp f s
  | .wgend f => Sys2Proof.Machine.execWgend f s
  | .gangend f => Sys2Proof.Machine.execGangend f s
  | .swapb f => Sys2Proof.Machine.execSwapb f s
  | .purgev f => Sys2Proof.Machine.execPurgev f s
  | .xlatinv f => Sys2Proof.Machine.execXlatinv f s
  | .sfqpop f => Sys2Proof.Machine.execSfqpop f s
  | .siderd f => Sys2Proof.Machine.execSiderd f s
  | .haltcHalt f => Sys2Proof.Machine.execHaltcHalt f s
  | .haltcLift f => Sys2Proof.Machine.execHaltcLift f s
  | .haltcRetire f => Sys2Proof.Machine.execHaltcRetire f s
  | .evpost f => Sys2Proof.Machine.execEvpost f s
  | .issuePick u => Sys2Proof.Machine.execIssuePick u s
  | .returningAccessCommit h => Sys2Proof.Machine.execReturningAccessCommit h s
  | .returningAccessFault h => Sys2Proof.Machine.execReturningAccessFault h s
  | .storeFaultReport h => Sys2Proof.Machine.execStoreFaultReport h s
  | .rd a k => Sys2Proof.Machine.execRd a k s
  | .own a bytes => Sys2Proof.Machine.execOwn a bytes s
  | .commandComplete id => Sys2Proof.Machine.execCommandComplete id s
  | .commandFailure id why => Sys2Proof.Machine.execCommandFailure id why s
  | .bitmapChunkSet c => Sys2Proof.Machine.execBitmapChunkSet c s
  | .mpostAdmit cluster => Sys2Proof.Machine.execMpostAdmit cluster s
  | .bctlResume cluster => Sys2Proof.Machine.execBctlResume cluster s
  | .bctlSkip cluster => Sys2Proof.Machine.execBctlSkip cluster s
  | .bctlEnd cluster => Sys2Proof.Machine.execBctlEnd cluster s
  | .ifetchFill die asid line => Sys2Proof.Machine.execIfetchFill die asid line s
  | .napExpiry h => Sys2Proof.Machine.execNapExpiry h s
  | .waitaRecheck h => Sys2Proof.Machine.execWaitaRecheck h s
  | .arrwWake h => Sys2Proof.Machine.execArrwWake h s
  | .tkwaitRecheck h => Sys2Proof.Machine.execTkwaitRecheck h s
  | .launchComplete launch => Sys2Proof.Machine.execLaunchComplete launch s
  | .eventArbitration => Sys2Proof.Machine.execEventArbitration s
  | .overflowMarker => Sys2Proof.Machine.execOverflowMarker s
  | .fwctlUpdate => Sys2Proof.Machine.execFwctlUpdate s
  | .commitGo => Sys2Proof.Machine.execCommitGo s
  | .readyUp => Sys2Proof.Machine.execReadyUp s
  | .pendingStoreFaultTrap h => Sys2Proof.Machine.execPendingStoreFaultTrap h s
  | .commandFailureTrap h => Sys2Proof.Machine.execCommandFailureTrap h s
  | .spillComplete group => Sys2Proof.Machine.execSpillComplete group s
  | .saveComplete gang => Sys2Proof.Machine.execSaveComplete gang s
  | .stackSpillFill h spill => Sys2Proof.Machine.execStackSpillFill h spill s
  | .push n w => Sys2Proof.Machine.execPush n w s
  | .inv n w => Sys2Proof.Machine.execInv n w s
  | .eviction n w => Sys2Proof.Machine.execEviction n w s
  | .remoteAtomic r => Sys2Proof.Machine.execRemoteAtomic r s
  | .hostRdmaWrite at_ bytes => Sys2Proof.Machine.execHostRdmaWrite at_ bytes s
  | .hostRdmaRead pa len => Sys2Proof.Machine.execHostRdmaRead pa len s
  | .remoteInvalidation m off => Sys2Proof.Machine.execRemoteInvalidation m off s
  | .fabricTimeout req => Sys2Proof.Machine.execFabricTimeout req s
  | .linkFailure l => Sys2Proof.Machine.execLinkFailure l s
  | .peerRejoin peer inbound => Sys2Proof.Machine.execPeerRejoin peer inbound s
  | .parityDelta d => Sys2Proof.Machine.execParityDelta d s
  | .parityDeltaAck stream seq => Sys2Proof.Machine.execParityDeltaAck stream seq s
  | .uncorrectableError e => Sys2Proof.Machine.execUncorrectableError e s
  | .parityWordRebuild w => Sys2Proof.Machine.execParityWordRebuild w s
  | .groupDegraded member => Sys2Proof.Machine.execGroupDegraded member s
  | .parityRowRebuild r => Sys2Proof.Machine.execParityRowRebuild r s
  | .parityRebuildComplete => Sys2Proof.Machine.execParityRebuildComplete s
  | .parityMemberReplace member pkg => Sys2Proof.Machine.execParityMemberReplace member pkg s
  | .parityRowRestore r => Sys2Proof.Machine.execParityRowRestore r s
  | .dieLoss die => Sys2Proof.Machine.execDieLoss die s
  | .dieDirectoryRebuild die => Sys2Proof.Machine.execDieDirectoryRebuild die s
  | .dieRebuildComplete die => Sys2Proof.Machine.execDieRebuildComplete die s
  | .ringPublish h v => Sys2Proof.Machine.execRingPublish h v s
  | .xferPacketArrival m => Sys2Proof.Machine.execXferPacketArrival m s
  | .xgetReadRequest m n => Sys2Proof.Machine.execXgetReadRequest m n s
  | .packetResend g => Sys2Proof.Machine.execPacketResend g s
  | .extentRelease port base => Sys2Proof.Machine.execExtentRelease port base s
  | .poolDeviceCompletion id err => Sys2Proof.Machine.execPoolDeviceCompletion id err s
  | .entryAgeRaise cluster entry => Sys2Proof.Machine.execEntryAgeRaise cluster entry s
  | .refreshWindowStart die => Sys2Proof.Machine.execRefreshWindowStart die s
  | .refreshWindowEnd die => Sys2Proof.Machine.execRefreshWindowEnd die s
  | .kickSlotWrite q bytes => Sys2Proof.Machine.execKickSlotWrite q bytes s
  | .qidxProdWrite q prod => Sys2Proof.Machine.execQidxProdWrite q prod s
  | .kickRun q => Sys2Proof.Machine.execKickRun q s
  | .kickRegister q => Sys2Proof.Machine.execKickRegister q s
  | .kickUnregister q => Sys2Proof.Machine.execKickUnregister q s
  | .nodeStart replay node => Sys2Proof.Machine.execNodeStart replay node s
  | .gangPlacement launch sites => Sys2Proof.Machine.execGangPlacement launch sites s
  | .holdbackReserve => Sys2Proof.Machine.execHoldbackReserve s
  | .sliceExpiry q => Sys2Proof.Machine.execSliceExpiry q s
  | .gangSave gang => Sys2Proof.Machine.execGangSave gang s
  | .bankSwapComplete gang => Sys2Proof.Machine.execBankSwapComplete gang s
  | .gangResume gang sites => Sys2Proof.Machine.execGangResume gang sites s
  | .qcfgWrite q v => Sys2Proof.Machine.execQcfgWrite q v s
  | .registerWrite unit off v by_ => Sys2Proof.Machine.execRegisterWrite unit off v by_ s
  | .coldStart => Sys2Proof.Machine.execColdStart s
  | .warmStart => Sys2Proof.Machine.execWarmStart s
  | .startTimeout => Sys2Proof.Machine.execStartTimeout s
  | .wdogKick proc => Sys2Proof.Machine.execWdogKick proc s
  | .watchdogExpiry proc => Sys2Proof.Machine.execWatchdogExpiry proc s
  | .trialExpiry => Sys2Proof.Machine.execTrialExpiry s
  | .spdmGetVersion => Sys2Proof.Machine.execSpdmGetVersion s
  | .spdmGetCapabilities => Sys2Proof.Machine.execSpdmGetCapabilities s
  | .spdmNegotiateAlgorithms offer => Sys2Proof.Machine.execSpdmNegotiateAlgorithms offer s
  | .spdmGetDigests => Sys2Proof.Machine.execSpdmGetDigests s
  | .spdmGetCertificate slot off len => Sys2Proof.Machine.execSpdmGetCertificate slot off len s
  | .spdmChallenge slot x => Sys2Proof.Machine.execSpdmChallenge slot x s
  | .spdmGetMeasurements index x => Sys2Proof.Machine.execSpdmGetMeasurements index x s
  | .extentAdd port base size => Sys2Proof.Machine.execExtentAdd port base size s
  | .powerLoss => Sys2Proof.Machine.execPowerLoss s

end Sys2Proof.Machine
end

