-- ==== Sys2Proof/Machine/Idle.lean ====
section
/-!
DEFINITION. What a step does (log entries 1, 4 and 8): the head of the agenda, the picked stream's fetch, or the machine's own
next event; and a word placed where the next step fetches it (log entry 3).
-/

namespace Sys2Proof.Machine

/-! ### The machine's own events -/

/-- An event of the machine itself, as what it does to the state. -/
abbrev OwnEvent := State → Out

/-- An event changes the state, or stops the machine. -/
def State.changes (s : State) (f : OwnEvent) : Bool :=
  match f s with
  | .next t => t != s
  | _ => true

/-- The events of a stream's accesses and waits. -/
def hartEvents (h : Hart) : List OwnEvent :=
  let m := h.m
  (match m.returning with
    | [] => []
    | r :: _ =>
      if r.trap.isSome then [execReturningAccessFault h.id] else if r.confirmed then [execReturningAccessCommit h.id] else [])
  ++ (List.range m.returning.length).map (fun k => execRd (.hart h.id) k)
  ++ (if m.stores.isEmpty then [] else [execOwn (.hart h.id 0) [], execStoreFaultReport h.id])
  ++ (if h.c.napEnd.isSome then [execNapExpiry h.id] else [])
  ++ (match h.c.wait with
    | some { i := .waita _, .. } => [execWaitaRecheck h.id]
    | some { i := .tkwait _, .. } => [execTkwaitRecheck h.id]
    | some { i := .arrw _, .. } => [execArrwWake h.id]
    | _ => [])

/-- The dirty copies of pool words for which a store or a command waits: given up, they go to their device (R193). -/
def State.poolEvents (s : State) : List OwnEvent :=
  s.allHarts.flatMap (fun h => h.m.stores.flatMap (fun st => st.pool.flatMap (fun k =>
    ((chainLevels (issuerOf h) 1).filter (fun l => isDirty (s.copyAt (chainNode h.pl.core l) k).st)).map (fun l =>
      execEviction (chainNode h.pl.core l) k))))
  ++ (s.cmds.filter (fun c => c.fin.isSome)).flatMap (fun c =>
    (s.copies.filter (fun (x : Copy) => x.node == chainNode c.core 1 && x.key.pw.kind == 2 && isDirty x.st)).map (fun x =>
      execEviction x.node x.key))

/-- The events of commands, tables, saves and launches. -/
def State.unitEvents (s : State) : List OwnEvent :=
  s.cmds.map (fun c => execCommandComplete c.id)
  ++ s.clusters.flatMap (fun p => [execMpostAdmit p.1] ++
      (p.2.entries.filter (fun e => e.2.st == .posted)).map (fun e => execEntryAgeRaise p.1 e.1))
  ++ (s.gangs.filter (fun p => !(s.gangIn p.1 .saving).isEmpty)).flatMap (fun p =>
      [execBankSwapComplete p.1, execSaveComplete p.1])
  ++ (s.groups.filter (fun p => p.2.phase == .saving)).map (fun p => execSpillComplete p.1)
  ++ (s.launches.filter (fun p => !p.2.complete)).map (fun p => execLaunchComplete p.1)

/-- The events of the front end, of dies and of Crown. -/
def State.packageEvents (s : State) : List OwnEvent :=
  (if s.fe.raised.isEmpty then [] else [execEventArbitration]) ++ (if s.fe.pend then [execOverflowMarker] else [])
  ++ s.queues.flatMap (fun p => [execKickRun p.1, execKickRegister p.1, execKickUnregister p.1] ++
      (if getBits p.2.qcfg 0 32 = 0 then [] else [execSliceExpiry p.1]))
  ++ s.replays.flatMap (fun p => ((List.range p.2.nodes.length).filter (fun n => s.canStart p.1 n)).map (fun n => execNodeStart p.1 n))
  ++ (if s.fe.oldest.isEmpty then [] else [execHoldbackReserve])
  ++ s.dies.flatMap (fun p => (if p.2.rebuild.isSome then [execDieDirectoryRebuild p.1, execDieRebuildComplete p.1] else [])
      ++ [execRefreshWindowEnd p.1, execRefreshWindowStart p.1])
  ++ (if s.crown.state == 5 then [execFwctlUpdate] else [])
  ++ (if s.crown.startAt.isSome then [execStartTimeout] else []) ++ (if s.crown.trialAt.isSome then [execTrialExpiry] else [])
  ++ s.crown.released.map (fun p => execWatchdogExpiry p) ++ s.fabric.map (fun r => execFabricTimeout r.id)

/-- The lines that streams wait for, and those that PFH asked for. -/
def State.fillEvents (s : State) : List OwnEvent :=
  s.allHarts.filterMap (fun h => (s.missing h).map (fun a => execIfetchFill (dieOf h.pl.core) (s.asidOf h) a))
  ++ s.dies.flatMap (fun p => p.2.ahead.map (fun x => execIfetchFill p.1 x.asid x.addr))

/-- The unit that serves a stream. -/
def unitOf (h : Hart) : IssueUnit :=
  match h.role with
  | .warp => .sched h.pl.core (h.pl.slot % 2)
  | .bowler => .bowler (clusterOf h.pl.core)

/-- The unit that issues next: the units that serve a stream, and those of cores that exchange banks (R316), take turns. -/
def State.nextUnit (s : State) : IssueUnit :=
  let us := ((s.allHarts.filter (fun h => s.resident h)).map unitOf
    ++ (s.groups.filter (fun p : Nat × Group => p.2.phase == .saving && !p.2.swapDone)).map (fun p : Nat × Group => IssueUnit.sched p.2.core 0)).dedup
  (us[s.clock % max us.length 1]?).getD (.sched 0 0)

/-- The machine's own next event: the first that changes something, else a pick. -/
def State.idle (s : State) : Out :=
  match (s.allHarts.flatMap hartEvents ++ s.unitEvents ++ s.poolEvents ++ s.packageEvents ++ s.fillEvents).find? s.changes with
  | some f => f s
  | none => execIssuePick s.nextUnit s

/-! ### A step -/

/-- What a step does: it is over, or it runs an instruction, an event or a pair. -/
inductive Act where
  | ends (o : Out)
  | one (i : Instr) (s : State)
  | pair (w0 w1 : BitVec 96) (s : State)

/-- An item of the agenda that may happen: an event, and while the package has no power only a cold start. -/
def State.admits (s : State) (e : Instr) : Bool :=
  (encode e).isNone && (s.powered || (match e with
    | .coldStart => true
    | _ => false))

/-- What the fetch gives as an act. -/
def actOf : Fetched → Act
  | .done t => .ends (.next t)
  | .one i t => .one i t
  | .pair w0 w1 t => .pair w0 w1 t

/-- What a step does. -/
def State.act (s : State) : Act :=
  match s.agenda with
  | e :: rest => if s.admits e then .one e { s with agenda := rest } else .ends (.next { s with agenda := rest })
  | [] => if !s.powered then .ends (.next s) else if s.picked then actOf s.fetch else .ends s.idle

/-! ### A word placed at the code address (log entry 3) -/

/-- The words of a line: the word given at its slot, YIELD in the others. -/
def wordsFrom (k : Nat) (w : BitVec 96) : List (BitVec 96) :=
  (List.range 5).map (fun j => if j = k then w else 0x140000000000000000000000)

/-- The line that holds a word at a code address, every slot a legal target. -/
def lineWith (pc : Dword) (w : BitVec 96) : BitVec 512 := mkLine (wordsFrom (slotOf pc) w) 31 0

/-- The stream that runs the word: of the role of the word's class, live, picked and held by nothing. -/
def runnerOf (w : BitVec 96) (h : Hart) : Hart :=
  { h with
    role := if (wordForm w).1 = 10 then .bowler else .warp
    live := true
    c := { h.c with pc := lineAddr h.c.pc + BitVec.ofNat 64 (min (slotOf h.c.pc) 4), arriving := false, wait := none, napEnd := none
                    arrivedBar := false, arrivedGang := false }
    t := { h.t with tstat := putBits h.t.tstat 24 16 0, tskid := putBits h.t.tskid 0 1 0 }
    m := { h.m with sfrecs := [], fails := [] }
    sch := { h.sch with skid := none }
    bow := { h.bow with stopped := false } }

/-- The state whose next step fetches and runs the word. -/
def State.placeWord (s : State) (w : BitVec 96) : State :=
  let h := runnerOf w s.cur
  let s := { s with cur := h, picked := true, powered := true, agenda := [] }
  let g := s.group h.pl.group
  let s := s.setGroup h.pl.group { g with phase := .resident, halt := none }
  let d := dieOf h.pl.core
  s.setDie d ({ s.die d with failed := false }.putLine
    { asid := s.asidOf h, addr := lineAddr h.c.pc, data := lineWith h.c.pc w, user := true, held := [] })

end Sys2Proof.Machine
end

