-- ==== Sys2Proof/Machine/Step.lean ====
section
/-!
DEFINITION. The step of the machine, and the state whose next step runs a given word.
-/

namespace Sys2Proof.Machine

/-- One step: what the agenda, the picked stream or the machine itself does next. -/
def step (s : State) : Host.Outcome State Fault Refusal :=
  match s.act with
  | .ends o => o
  | .one i t => exec i t
  | .pair w0 w1 t => execPair w0 w1 t

/-- The state with an instruction placed where `step` fetches its next instruction. Every word has 96 bits. -/
def State.withFetchWord (s : State) (_nbits w : Nat) : State := s.placeWord (BitVec.ofNat 96 w)

end Sys2Proof.Machine
end

