-- ==== Sys2Proof/Safety.lean ====
section
/-!
DEFINITION. The terms in which claims speak of a run: when an instruction passes the checks at issue, what a safe step is,
which states are well formed, and what an instruction may leave unchanged.
-/

namespace Sys2Proof.Machine

/-- The instruction passes every check of `issue`: it is legal on its executor (R58), no unconfirmed load holds it back
(R198), its mask selects a lane (R37), its registers are full (R40), and its sources carry tags that it accepts (R89, R90). -/
def Issues (i : Instr) (g : Guard) (s : State) : Prop :=
  illegal i s = none ∧ loadWait i s.cur = false ∧ laneMask s.cur g ≠ 0
    ∧ emptyTrap (uses i) s.cur.r = false ∧ emptyWait (uses i) s.cur.r = false ∧ sourceTrap (uses i) s = none

/-- The step is safe: it answers a next state. -/
def Safe (s : State) : Prop := ∃ t, step s = .next t

/-- Every memory of the machine is in canonical form: HBM and the other package memories, the host's, and each scratchpad. -/
def State.memoryWf (s : State) : Prop :=
  memWf s.mem = true ∧ memWf s.hostMem = true ∧ ∀ p ∈ s.groups, memWf p.2.scratch = true

/-- Every stream of the package has a number of its own, and the next number is still free (the model's numbering, log entry 1). -/
def State.streamsDistinct (s : State) : Prop :=
  (s.allHarts.map (fun h => h.id)).Nodup ∧ ∀ h ∈ s.allHarts, h.id < s.nextId

/-- The executing stream has gone on to the next slot: its program counter follows R32, one more instruction is counted, and
nothing of it waits. -/
def Stepped (s t : State) : Prop :=
  t.cur.c.pc = nextPc s.cur.c.pc ∧ t.cur.c.issued = s.cur.c.issued + 1 ∧ t.cur.c.arriving = false
    ∧ t.cur.c.wait = none ∧ t.cur.c.replay = none ∧ t.picked = false

/-- Everything outside the executing stream is as it was: every byte of memory, every other stream, every record of the
package. -/
def OthersKept (s t : State) : Prop := { t with cur := s.cur, picked := s.picked } = s

/-- Of the executing stream, everything but its registers, its control, its scheduler's skid and the halting count is as it
was: its place, flags, stack pointers, trap state, pending accesses, tiles and descriptors. -/
def HartKept (h k : Hart) : Prop :=
  k.id = h.id ∧ k.role = h.role ∧ k.live = h.live ∧ k.pl = h.pl ∧ k.y = h.y ∧ k.m = h.m ∧ k.bow = h.bow
    ∧ k.t.tpc = h.t.tpc ∧ k.t.tstat = h.t.tstat ∧ k.t.tsfov = h.t.tsfov ∧ k.t.tscr = h.t.tscr ∧ k.t.side = h.t.side
    ∧ k.c.em = h.c.em ∧ k.c.joins = h.c.joins ∧ k.c.priv = h.c.priv

/-- Every scalar register but those of `ds` reads as it did. -/
def ScalarsKept (ds : List Nat) (r q : Regs) : Prop := ∀ n, n ∉ ds → q.getS n = r.getS n
/-- Every vector register but those of `ds` is as it was: lanes, tag and full/empty bit. -/
def VectorsKept (ds : List Nat) (r q : Regs) : Prop := ∀ n, n ∉ ds → q.getV n = r.getV n
/-- Every predicate but those of `ds` reads as it did. -/
def PredsKept (ds : List Nat) (r q : Regs) : Prop := ∀ n, n ∉ ds → q.getP n = r.getP n
/-- Every boolean but those of `ds` is as it was. -/
def BoolsKept (ds : List Nat) (r q : Regs) : Prop := ∀ n, n ∉ ds → q.getB n = r.getB n

/-- The whole register file but the registers named: scalars, vectors, predicates and booleans. -/
def RegsKept (sd vd pd bd : List Nat) (r q : Regs) : Prop :=
  ScalarsKept sd r q ∧ VectorsKept vd r q ∧ PredsKept pd r q ∧ BoolsKept bd r q

/-! ### Results in registers -/

/-- The low bits of a scalar register at the width of ST (R97). -/
def stLow (t : STy) (x : Dword) : BitVec (stWidth t) := x.setWidth (stWidth t)
/-- A result at the width of ST extended to a register, by its sign under a signed ST and by zeros otherwise (R97). -/
def stBack (t : STy) (y : BitVec (stWidth t)) : Dword :=
  if WellFormed.stSigned t then y.signExtend 64 else y.setWidth 64

/-- The instruction has ended with scalar register `d` holding `v` and everything else as it was: a write to S0 is discarded
(R10). -/
def WroteS (d : Nat) (v : Dword) (s t : State) : Prop :=
  (d ≠ 0 → t.cur.r.getS d = v) ∧ (d = 0 → t.cur.r = s.cur.r) ∧ RegsKept [d] [] [] [] s.cur.r t.cur.r
    ∧ Stepped s t ∧ OthersKept s t ∧ HartKept s.cur t.cur

/-- The instruction has ended with boolean `d` holding `v` and everything else as it was. -/
def WroteB (d : Nat) (v : Bool) (s t : State) : Prop :=
  t.cur.r.getB d = v ∧ RegsKept [] [] [] [d] s.cur.r t.cur.r ∧ Stepped s t ∧ OthersKept s t ∧ HartKept s.cur t.cur

/-- The instruction has ended with predicate `d` holding `v` and everything else as it was: a write to P0 is discarded
(R10). -/
def WroteP (d : Nat) (v : Word) (s t : State) : Prop :=
  (d ≠ 0 → t.cur.r.getP d = v) ∧ (d = 0 → t.cur.r = s.cur.r) ∧ RegsKept [] [] [d] [] s.cur.r t.cur.r
    ∧ Stepped s t ∧ OthersKept s t ∧ HartKept s.cur t.cur

/-- The instruction has ended with every register as it was, and everything else but the stream's control. -/
def WroteNone (s t : State) : Prop := t.cur.r = s.cur.r ∧ Stepped s t ∧ OthersKept s t ∧ HartKept s.cur t.cur

/-- Executing `i` answers the next state that writes `v` to scalar register `d`. -/
def EndsS (i : Instr) (d : Nat) (v : Dword) (s : State) : Prop := ∃ t, exec i s = .next t ∧ WroteS d v s t
/-- Executing `i` answers the next state that writes `v` to boolean `d`. -/
def EndsB (i : Instr) (d : Nat) (v : Bool) (s : State) : Prop := ∃ t, exec i s = .next t ∧ WroteB d v s t

/-- Element `e` of a lane that holds `P` elements (R87). -/
def elemBits (P : Nat) (x : Word) (e : Nat) : BitVec (32 / P) := x.extractLsb' (32 / P * e) (32 / P)

/-- Of the executing stream, everything but its registers, its control and its flags is as it was. -/
def HartKeptButFlags (h k : Hart) : Prop := HartKept h { k with y := { k.y with flg := h.y.flg } }

/-- The instruction has ended with vector register `d` tagged `tag`, its lanes outside `m` as they were, the flags `fl` added
to FLG, and everything else but lanes of `d` as it was. -/
def WroteV (d : Nat) (tag : BitVec 12) (m : Word) (fl : Flags) (s t : State) : Prop :=
  (t.cur.r.getV d).tag = tag ∧ (t.cur.r.getV d).full = (s.cur.r.getV d).full
    ∧ (∀ l, m.getLsbD l = false → (t.cur.r.getV d).lane l = (s.cur.r.getV d).lane l)
    ∧ t.cur.y.flg = s.cur.y.flg ||| fl.setWidth 64
    ∧ RegsKept [] [d] [] [] s.cur.r t.cur.r ∧ Stepped s t ∧ OthersKept s t ∧ HartKeptButFlags s.cur t.cur

/-- Executing `i` answers a next state that writes vector register `d`, tagged `tag`, in the lanes of `m` alone, with the value
that `v` gives each lane and no flag. -/
def EndsV (i : Instr) (d : Nat) (tag : BitVec 12) (m : Word) (v : Nat → Word) (s : State) : Prop :=
  ∃ t, exec i s = .next t ∧ WroteV d tag m 0 s t ∧ ∀ l, l < 32 → m.getLsbD l = true → (t.cur.r.getV d).lane l = v l

/-- Executing `i` answers a next state that writes predicate `d` with `v`, or nothing where `d` is P0. -/
def EndsP (i : Instr) (d : Nat) (v : Word) (s : State) : Prop := ∃ t, exec i s = .next t ∧ WroteP d v s t

/-- The guard and the result of an instruction of class 0x5 that writes a vector register or a predicate. -/
def vecFn5 : Instr → Option (Guard × (Hart → VRes))
  | .shfl f => some (f.g, shflRes f)
  | .vote f => some (f.g, voteRes f)
  | .vred f => some (f.g, vredRes f)
  | .vscan f => some (f.g, vscanRes f)
  | .vwrl f => some (f.g, vwrlRes f)
  | .pmov f => some (f.g, pmovRes f)
  | .pfroms f => some (f.g, pfromsRes f)
  | .dmask f => some (f.g, dmaskRes f)
  | .vcmx f => some (f.g, vcmxRes f)
  | .vmatch f => some (f.g, vmatchRes f)
  | _ => none

/-! ### The values of the linear formats (R72), for claims about rounding -/

/-- The code is finite. -/
def Fmt.isFinite (F : Fmt) (c : Nat) : Prop := c % 2 ^ (F.w - 1) < (2 ^ F.eb - 1) * 2 ^ F.fb
/-- The code is a NaN. -/
def Fmt.isNaN (F : Fmt) (c : Nat) : Prop := (2 ^ F.eb - 1) * 2 ^ F.fb < c % 2 ^ (F.w - 1)
/-- The sign of a code is set. -/
def Fmt.negative (F : Fmt) (c : Nat) : Prop := c / 2 ^ (F.w - 1) % 2 = 1
/-- The magnitude of a finite code: its fraction and exponent fields as R72 lays them out. -/
def Fmt.magnitude (F : Fmt) (c : Nat) : ℚ :=
  let ex := c / 2 ^ F.fb % 2 ^ F.eb
  let fr := c % 2 ^ F.fb
  if ex = 0 then (fr : ℚ) * 2 ^ (1 - (2 ^ (F.eb - 1) - 1 : ℤ) - F.fb)
  else ((2 ^ F.fb + fr : ℕ) : ℚ) * 2 ^ ((ex : ℤ) - (2 ^ (F.eb - 1) - 1) - F.fb)
/-- The value of a finite code. -/
def Fmt.value (F : Fmt) (c : Nat) : ℚ := if c / 2 ^ (F.w - 1) % 2 = 1 then -F.magnitude c else F.magnitude c
/-- The code of the largest finite value. -/
def Fmt.maxCode (F : Fmt) : Nat := (2 ^ F.eb - 1) * 2 ^ F.fb - 1
/-- The canonical NaN of R72. -/
def Fmt.canonicalNaN (F : Fmt) : Nat := (2 ^ F.eb - 1) * 2 ^ F.fb + 2 ^ (F.fb - 1)
/-- The key by which codes that are no NaN order: sign and magnitude, with −0 below +0. -/
def Fmt.orderKey (F : Fmt) (c : Nat) : Int :=
  if c / 2 ^ (F.w - 1) % 2 = 1 then -((c % 2 ^ (F.w - 1) : Nat) : Int) - 1 else ((c % 2 ^ (F.w - 1) : Nat) : Int)

/-- Code `c` is the exact value `x` rounded to `F` under RM 0 to 3 (R44, R74): no finite code lies nearer, a tie goes to an even
code, and a directed mode gives the last value on its side. -/
def Fmt.Rounds (F : Fmt) (rm : Nat) (x : ℚ) (c : Nat) : Prop :=
  F.isFinite c ∧ c < 2 ^ F.w ∧
    ∀ y, y < 2 ^ F.w → F.isFinite y →
      match rm with
      | 0 => |F.value c - x| ≤ |F.value y - x| ∧ (|F.value c - x| = |F.value y - x| → F.value y = F.value c ∨ c % 2 = 0)
      | 1 => |F.value c| ≤ |x| ∧ 0 ≤ F.value c * x ∧ (|F.value y| ≤ |x| → 0 ≤ F.value y * x → |F.value y| ≤ |F.value c|)
      | 2 => x ≤ F.value c ∧ (x ≤ F.value y → F.value c ≤ F.value y)
      | _ => F.value c ≤ x ∧ (F.value y ≤ x → F.value y ≤ F.value c)

/-- Code `c` is what a magnitude above every finite one gives under RM 0 to 3, by the sign of the exact value (R74). -/
def Fmt.Overflows (F : Fmt) (rm : Nat) (neg : Bool) (c : Nat) : Prop :=
  let toInf := rm = 0 ∨ (rm = 2 ∧ neg = false) ∨ (rm = 3 ∧ neg = true)
  let sign := if neg then 2 ^ (F.w - 1) else 0
  (toInf → c = sign + F.maxCode + 1) ∧ (¬ toInf → c = sign + F.maxCode)

/-- Code `c` is the square root of the exact value `x` rounded to `F` under RM 0 to 3 (R74, R115). -/
def Fmt.RoundsRoot (F : Fmt) (rm : Nat) (x : ℚ) (c : Nat) : Prop :=
  F.isFinite c ∧ c < 2 ^ F.w ∧ 0 ≤ F.value c ∧
    let r := Real.sqrt x
    ∀ y, y < 2 ^ F.w → F.isFinite y → 0 ≤ F.value y →
      match rm with
      | 0 => |(F.value c : ℝ) - r| ≤ |(F.value y : ℝ) - r|
          ∧ (|(F.value c : ℝ) - r| = |(F.value y : ℝ) - r| → F.value y = F.value c ∨ c % 2 = 0)
      | 2 => r ≤ F.value c ∧ (r ≤ F.value y → F.value c ≤ F.value y)
      | _ => F.value c ≤ r ∧ (F.value y ≤ r → F.value y ≤ F.value c)

/-- The exponent of the smallest subnormal of a format. -/
def Fmt.leastExp (F : Fmt) : ℤ := 1 - (2 ^ (F.eb - 1) - 1) - F.fb
/-- The unit in the last place of a format at a value (R115). -/
def Fmt.ulp (F : Fmt) (y : ℚ) : ℚ := if y = 0 then 2 ^ F.leastExp else 2 ^ max (Int.log 2 |y| - F.fb) F.leastExp

/-- Code `c` lies within the bound of a special function around `y`: so many units in the last place, or 2 to the −24 where that
is allowed (R115). -/
def Fmt.Near (F : Fmt) (ulps : ℚ) (absolute : Bool) (y : ℚ) (c : Nat) : Prop :=
  F.isFinite c ∧ (|F.value c - y| ≤ ulps * F.ulp y ∨ (absolute = true ∧ |F.value c - y| ≤ 1 / 2 ^ 24))

/-! ### The values of the L formats and of integers (R70, R71, R76, R77, R81 to R83), for claims about conversions -/

/-- The logarithm of a body, in units of 2 to the −M. -/
def LFmt.lam (L : LFmt) (b : Nat) : ℚ := lamOf L b
/-- The linear magnitude of a body at scale 0. -/
def LFmt.lin (L : LFmt) (b : Nat) : ℚ := (prodLin L (lamOf L b)).1 * 2 ^ (prodLin L (lamOf L b)).2
/-- The bound below which a logarithm underflows. -/
def LFmt.under (L : LFmt) : ℚ := -L.lam L.top - (L.lam 2 + L.lam L.top) / 2

/-- Code `r` is what Encode gives for a sign and the exact logarithm `nu`, the scale subtracted, under RM 0 to 3; `fl` holds the
flags raised (R82). -/
def LFmt.Encodes (L : LFmt) (neg : Bool) (nu : ℚ) (rm r : Nat) (fl : Dword) : Prop :=
  if L.lam L.top < nu then r = L.code neg L.top ∧ fl.getLsbD 5 = true ∧ fl.getLsbD 0 = true
  else if nu < L.under then r = 0 ∧ fl.getLsbD 6 = true ∧ fl.getLsbD 0 = true
  else if nu < -L.lam L.top then r = L.code neg 1 ∧ fl.getLsbD 0 = true
  else ∃ b, 1 ≤ b ∧ b ≤ L.top ∧ L.lam b ≤ nu ∧ (b < L.top → nu < L.lam (b + 1)) ∧ (L.lam b = nu → r = L.code neg b)
    ∧ (L.lam b ≠ nu → fl.getLsbD 0 = true ∧
        let mid := (L.lam b + L.lam (b + 1)) / 2
        let up := (rm = 0 ∧ (mid < nu ∨ (nu = mid ∧ (b + 1) % 2 = 0))) ∨ (rm = 2 ∧ neg = false) ∨ (rm = 3 ∧ neg = true)
        (up → r = L.code neg (b + 1)) ∧ (¬ up → r = L.code neg b))

/-- The midpoint that RoundLog compares with between body `b` and the next (R83). -/
def LFmt.mid (L : LFmt) (b : Nat) : ℚ :=
  if L = L8 ∨ 2 ^ (L.m - 5) ≤ L.lam (b + 1) - L.lam b then
    let u := (lamOf L b + lamOf L (b + 1)) * 32 / 2 ^ L.m
    (t64.getD (u % 64).toNat 0 : ℚ) * 2 ^ (u / 64 - 23)
  else (L.lin b + L.lin (b + 1)) / 2

/-- Code `r` is what RoundLog gives for a sign and the exact magnitude `a`, the scale divided out, under RM 0 to 3; `fl` holds the
flags raised (R83). -/
def LFmt.RoundsLog (L : LFmt) (neg : Bool) (a : ℚ) (rm r : Nat) (fl : Dword) : Prop :=
  if L.lin L.top < a then r = L.code neg L.top ∧ fl.getLsbD 5 = true ∧ fl.getLsbD 0 = true
  else if a < (2 : ℚ) ^ ⌊L.under / 2 ^ L.m⌋ then r = 0 ∧ fl.getLsbD 6 = true ∧ fl.getLsbD 0 = true
  else if a < L.lin 1 then r = L.code neg 1 ∧ fl.getLsbD 0 = true
  else ∃ b, 1 ≤ b ∧ b ≤ L.top ∧ L.lin b ≤ a ∧ (b < L.top → a < L.lin (b + 1)) ∧ (L.lin b = a → r = L.code neg b)
    ∧ (L.lin b ≠ a → fl.getLsbD 0 = true ∧
        let up := (rm = 0 ∧ (L.mid b < a ∨ (a = L.mid b ∧ (b + 1) % 2 = 0))) ∨ (rm = 2 ∧ neg = false) ∨ (rm = 3 ∧ neg = true)
        (up → r = L.code neg (b + 1)) ∧ (¬ up → r = L.code neg b))

/-- `z` is the exact value `x` rounded to an integer under RM 0 to 3 (R44, R71). -/
def RoundsInt (rm : Nat) (x : ℚ) (z : ℤ) : Prop :=
  match rm with
  | 0 => |z - x| ≤ 1 / 2 ∧ (|z - x| = 1 / 2 → z % 2 = 0)
  | 1 => |(z : ℚ)| ≤ |x| ∧ |x| < |(z : ℚ)| + 1 ∧ 0 ≤ z * x
  | 2 => x ≤ z ∧ (z : ℚ) < x + 1
  | _ => (z : ℚ) ≤ x ∧ x < z + 1

/-- An element of a format's code, with the scale of its register, has the finite value `v` (R70, R72, R77). -/
def HasValue (code : Nat) (scale : Int) (x : Nat) (v : ℚ) : Prop :=
  let w := 32 / WellFormed.perLane code
  if isLog code then
    let L := lfmtOf code
    (x = 0 ∧ v = 0) ∨ (x % 2 ^ L.n ≠ 0 ∧ v = (if x.testBit L.n then -1 else 1)
      * ((prodLin L (lamOf L (x % 2 ^ L.n) + scaleUnits L scale)).1 * 2 ^ (prodLin L (lamOf L (x % 2 ^ L.n) + scaleUnits L scale)).2))
  else if isInt code then v = (if codeSigned code then ((BitVec.ofNat w x).toInt : ℚ) else (x : ℚ))
  else (fmtOf code).isFinite x ∧ v = (fmtOf code).value x

/-- Code `r` of a format is the value `v` converted to it under RM 0 to 3 and the target's scale, where a linear format can hold it;
`fl` holds the flags raised (R71, R74, R86). -/
def ConvertsTo (code rm : Nat) (scale : Int) (v : ℚ) (r : Nat) (fl : Dword) : Prop :=
  let w := 32 / WellFormed.perLane code
  if isLog code then
    let L := lfmtOf code
    if v = 0 then r = 0 else L.RoundsLog (decide (v < 0)) (|v| * 2 ^ (-scale)) rm r fl
  else if isInt code then
    let lo : ℤ := if codeSigned code then -2 ^ (w - 1) else 0
    let hi : ℤ := if codeSigned code then 2 ^ (w - 1) - 1 else 2 ^ w - 1
    ∃ z, RoundsInt rm v z ∧ BitVec.ofNat w r = BitVec.ofInt w (max lo (min hi z)) ∧ (z < lo ∨ hi < z → fl.getLsbD 3 = true)
      ∧ (lo ≤ z → z ≤ hi → (z : ℚ) ≠ v → fl.getLsbD 0 = true)
  else
    let F := fmtOf code
    |v| ≤ F.value F.maxCode → F.Rounds rm v r ∧ (F.value r ≠ v → fl.getLsbD 0 = true)

/-! ### Accesses to memory -/

/-- Everything outside the executing stream is as it was, but for the number that a counted access takes (R189). -/
def OthersKeptButId (s t : State) : Prop := OthersKept s { t with nextId := s.nextId }

/-- Every register keeps its contents; the scalar registers of `sd` and the vector registers of `vd` are empty (R40, R197). -/
def Emptied (sd vd : List Nat) (r q : Regs) : Prop :=
  (∀ n, q.getS n = r.getS n) ∧ (∀ n, q.getP n = r.getP n) ∧ (∀ n, q.getB n = r.getB n)
    ∧ (∀ n, (q.getV n).lanes = (r.getV n).lanes ∧ (q.getV n).tag = (r.getV n).tag)
    ∧ (∀ n, n < 128 → q.fullS n = (r.fullS n && (n == 0 || !sd.contains n)))
    ∧ (∀ n, n < 1024 → q.fullV n = (r.fullV n && !vd.contains n))

/-- A returning access has left the issue stage (R197): it is pending with its elements, its destinations are empty, SPTR is
`sp`, and everything else is as it was. -/
def LoadIssued (i : Instr) (m : Word) (es : List Elem) (sp : Dword) (sd vd : List Nat) (s t : State) : Prop :=
  (∃ r, t.cur.m.returning = s.cur.m.returning ++ [r] ∧ r.i = i ∧ r.pc = s.cur.c.pc ∧ r.mask = m ∧ r.elems = es
      ∧ r.got = [] ∧ r.confirmed = false ∧ r.trap = none ∧ r.sptr = s.cur.y.sptr)
    ∧ t.cur.y = { s.cur.y with sptr := sp } ∧ Emptied sd vd s.cur.r t.cur.r ∧ t.cur.m.stores = s.cur.m.stores
    ∧ t.cur.t.tstat = s.cur.t.tstat ∧ Stepped s t ∧ OthersKeptButId s t

/-- A store-like access has retired (R200): it is pending with its elements, and every register and every byte of memory is as
it was. -/
def StoreIssued (i : Instr) (sc : Scope) (es : List StElem) (s t : State) : Prop :=
  (∃ st, t.cur.m.stores = s.cur.m.stores ++ [st] ∧ st.i = i ∧ st.pc = s.cur.c.pc ∧ st.elems = es ∧ st.scope = sc
      ∧ st.priv = s.cur.c.priv ∧ st.range = none ∧ st.faults = [])
    ∧ t.cur.r = s.cur.r ∧ t.cur.m.returning = s.cur.m.returning ∧ t.cur.t.tstat = s.cur.t.tstat ∧ Stepped s t
    ∧ OthersKeptButId s t

/-- Nothing that Release(S, pred) waits for is outstanding at the executing stream (R171). -/
def NothingToRelease (sc : Scope) (s : State) : Prop :=
  sc ≠ .surv ∧ s.cur.m.stores = [] ∧ s.cur.m.cp = [] ∧ s.cur.m.fb = [] ∧ s.pushWaits (s.fenceLevel sc) = []

/-! ### Bowler's state -/

/-- Executing `i` answers the next state whose tiles, descriptors and RP are `b`, with everything else as it was (R150, R158,
R159). -/
def EndsBow (i : Instr) (b : Bowler) (s : State) : Prop :=
  ∃ t, exec i s = .next t ∧ t.cur.bow = b ∧ t.cur.r = s.cur.r ∧ Stepped s t ∧ OthersKept s t

/-- The rows that MSTF and MSTL store from tile `t`, converted element by element (R161). -/
def storedRows (t : Tile) (conv : Nat → Narrow) (rows cols : Nat) : List (List (Nat × Nat × Flags)) :=
  (List.range rows).map (fun r => resolveSr ((List.range cols).map (fun j => (j, conv (t.at r j).toNat))))
/-- The flags of the elements of rows. -/
def rowFlags (rs : List (List (Nat × Nat × Flags))) : Flags := rs.foldl (fun acc r => r.foldl (fun acc x => acc ||| x.2.2) acc) 0

/-- Executing `i` answers a next state in which the tile's rows, converted by `conv` to elements of `size` bytes, are stored
where the shape gives them, with the flags of the conversion added to FLG (R161): whenever the tile is F32, the shape keeps
its limits, no flag traps and no word is refused or waits. -/
def TileStored (i : Instr) (f : FMX) (size : Nat) (conv : Nat → Narrow) (s : State) : Prop :=
  ∀ rows cols,
    getBits ((s.cur.bow.tile f.ta.toNat).tag.setWidth 64) 8 4 = 3 →
    shapeOf f s = some (s.cur.r.getS f.sa.toNat, s.cur.r.getS f.sb.toNat, rows, cols) →
    let rs := storedRows (s.cur.bow.tile f.ta.toNat) conv rows cols
    let done := s.engineRows (s.cur.r.getS f.sa.toNat) (s.cur.r.getS f.sb.toNat)
      ((List.range rows).zip (rs.map (fun r => r.flatMap (fun x => leBytes size x.2.1))))
    flgTraps s.cur.y.flg (rowFlags rs) = false → done.1 = none →
    ∃ t, exec i s = .next t ∧ t.cur.y.flg = done.2.cur.y.flg ||| (rowFlags rs).setWidth 64 ∧ t.cur.bow = done.2.cur.bow
      ∧ t.cur.r = done.2.cur.r ∧ Stepped done.2 t ∧ t.mem = done.2.mem

/-- The core accepts the address of a read aligned to `n` (R195, R196). -/
def Readable (n : Nat) (va : Dword) : Prop := canonical va = true ∧ va.toNat % n = 0
/-- The core accepts the address of a write aligned to `n`: it lies outside the weight window (R195, R201). -/
def Writable (h : Hart) (n : Nat) (va : Dword) : Prop :=
  canonical va = true ∧ va.toNat % n = 0 ∧ inWindow h.y.wswin va = false

end Sys2Proof.Machine
end

