-- ==== Sys2Proof/Certificates/Slice0/Obligations.lean ====
section
/-!
DEFINITION. The statements about the machine that the spec's rules make, for the provers.
-/

/-! ### Words (R35, R36, R47 to R58) -/

open Sys2Proof in
/-- R35, R36, R47 to R56: no bit of an encoding is dropped. The word of a well-formed instruction decodes to it, with every
operand at every value that its fields hold. -/
def Obligations.EncodeThenDecode : Prop :=
  ∀ (i : Instr) (w : BitVec 96), encode i = some w → i.wellFormed = true → decode w = .ok i

open Sys2Proof in
/-- R35, R36, R41, R58: no bit of a word is ignored. A word that decodes is the word of the instruction it decodes to, and
that instruction is well formed. -/
def Obligations.DecodeThenEncode : Prop :=
  ∀ (w : BitVec 96) (i : Instr), decode w = .ok i → encode i = some w ∧ i.wellFormed = true

open Sys2Proof in
/-- R36, R41, R56, R58: what a word earns by its class and function code alone. -/
def Obligations.WordsRejected : Prop :=
  ∀ w : BitVec 96,
    (w = 0 → decode w = .ok .nop)
    ∧ (classOf w ∈ [0xB#4, 0xD#4, 0xE#4, 0xF#4] → decode w = .error .reservedClass)
    ∧ (w ≠ 0 → w.extractLsb' 86 10 = 0 → decode w = .error .reservedBits)
    ∧ (classOf w ∉ [0xB#4, 0xD#4, 0xE#4, 0xF#4] → w.extractLsb' 86 10 ≠ 0 →
        (∀ r ∈ opTable, r.code ≠ (w.extractLsb' 86 10).toNat) → decode w = .error .reservedFunction)
    ∧ opTable.length = 208 ∧ (opTable.map (fun r => r.code)).Nodup

open Sys2Proof in
/-- Words written out from the encodings of the spec, with all they decode to (R35, R47, R49 to R55). -/
def Obligations.WordsDecoded : Prop :=
  decodeTableWord 96 0x010014280000000000000080 = some (.saddi {
      g := { gp := 0, gs := false }, sd := 5, sa := 5, ma := false, st := .i64, sub := 0, imm := 1 })
    ∧ decodeTableWord 96 0x52C000802000000804000000 = some (.vcmx {
      g := { gp := 0, gs := false }, vd := 1, va := 1, vb := 0, vc := 0, ma := false, mb := false, mc := false, ty := 2,
      rm := 0, sub := 8, pp := 0, bs := false })
    ∧ decodeTableWord 96 0x6040008C0001C80000000000 = some (.sst {
      g := { gp := 0, gs := false }, d := 1, sa := 12, vx := 0, md := false, ma := false, mx := false, ty := 3,
      ord := .rel, sc := .die, sub := 0, pp := 0, off := 0 })
    ∧ decodeTableWord 96 0x7000028A0040007A10000100 = some (.satom {
      g := { gp := 0, gs := false }, d := 5, sa := 10, x := 1, y := 0, ma := false, mx := false, my := false, ty := 3,
      ord := .acqrel, sc := .die, aop := 1, off := 0x10 })
    ∧ decodeTableWord 96 0xA14080000000000000000000 = some (.mma {
      g := { gp := 0, gs := false }, td := 2, ta := 0, tb := 0, sa := 0, sb := 0, sc := 0, ma := false, mb := false,
      mc := false, mf := 0, rm := 0, sub := 0, imm := 0 })
    ∧ decodeTableWord 96 0x120004000000000300200000 = some (.park {
      g := { gp := 0, gs := false }, ba := 0, bn := false, slot := 1, disp := 3, sa := 0, ma := false, pa := 2, sub := 0 })
    ∧ decodeTableWord 96 0xC00000000000008400000000 = some (.trap {
      g := { gp := 0, gs := false }, sd := 0, sa := 0, sb := 0, ma := false, mb := false, imm := 0x21, sub := 0, pa := 0 })

/-! ### A step (R28 to R34, R59, R286, R337) -/

open Sys2Proof Sys2Proof.Machine in
/-- R28 to R36, R286: a picked stream that no boundary trap, halt, nap or barrier holds, and whose line is in the instruction
cache, readable, whole and well formed, runs the instruction in its slot: the step is exec of what that slot's word decodes
to. -/
def Obligations.StepRunsTheDecodedInstruction : Prop :=
  ∀ (s : State) (l : ILine) (i : Instr),
    s.agenda = [] → s.powered = true → s.picked = true → s.resident s.cur = true → haltedHere s.cur = false →
    s.cur.c.arrivedBar = false → s.cur.c.arrivedGang = false → s.cur.c.napEnd = none →
    (s.cur.c.wait = none → s.boundaryTrap = none) →
    s.lineOf s.cur = some l → (s.cur.c.priv = true ∨ l.user = true) →
    lineParityOk l.data = true → lineMalformed l.data = false → pcOk s.cur.c.pc = true →
    (s.cur.c.arriving = true → lineTgt l.data (slotOf s.cur.c.pc) = true) →
    restNop l.data (slotOf s.cur.c.pc) = false → slotOf s.cur.c.pc ∉ linePairs l.data →
    decode (slotWord l.data (slotOf s.cur.c.pc)) = .ok i →
    step s = exec i s

open Sys2Proof Sys2Proof.Machine in
/-- R30 to R34, R58, R59, R166, R310, R333: what the sequencer does, for a warp or a Bowler stream, with a line that is not run
as it stands: an unreadable page, a line that fails its parity check, a malformed line, a target that is not marked, a tail of
NOPs, a pair, and a word that is no instruction. A line that fails the check is fetched once more; a page that refuses that fetch
is class 3 with the first check that fails at the stream's privilege, a second failure class 11, and a sound line is counted and run. The model's own choices here: a malformed line is
found before a target (log entry 21), an address without the form of R33 is class 8 only at an arrival and else goes on with the
next line (log entry 46), and a line's tail of NOPs is skipped with a pair of them (log entry 66). -/
def Obligations.FetchChecks : Prop :=
  ∀ (s : State) (l : ILine),
    s.agenda = [] → s.powered = true → s.picked = true → s.resident s.cur = true → haltedHere s.cur = false →
    s.cur.c.arrivedBar = false → s.cur.c.arrivedGang = false → s.cur.c.napEnd = none →
    (s.cur.c.wait = none → s.boundaryTrap = none) → settled s.cur = true → s.lineOf s.cur = some l →
    let k := slotOf s.cur.c.pc
    let w := slotWord l.data k
    let core := s.cur.pl.core
    let at_ := if s.cur.role = .warp then lineAddr s.cur.c.pc else 0
    let readable := s.cur.c.priv = true ∨ l.user = true
    let whole := lineParityOk l.data = true
    let sound := whole ∧ lineMalformed l.data = false ∧ k ≤ 4
      ∧ (s.cur.c.arriving = true → pcOk s.cur.c.pc = true ∧ lineTgt l.data k = true)
    (¬ readable → step s = .next (s.takeTrap { cls := 3, kind := kPRIV, va := at_ } 0 0))
    ∧ (readable → ¬ whole → s.fetchWaits core l.asid l.addr ≠ [] → ∃ t, step s = .next t ∧ t.cur = s.cur ∧ t.mem = s.mem)
    ∧ (∀ e u, readable → ¬ whole → s.fetchWaits core l.asid l.addr = [] → s.fetchLine core l.asid l.addr = (.error e, u) →
        step s = .next (u.takeTrap { cls := 3, kind := u.fetchKind l.addr e, va := at_ } 0 0))
    ∧ (∀ x u, readable → ¬ whole → s.fetchWaits core l.asid l.addr = [] → s.fetchLine core l.asid l.addr = (.ok x, u) →
        let d := (u.die (dieOf core)).putLine x
        (lineParityOk x.data = false →
          ∃ c, c.cls = 11 ∧ step s = .next ((u.setDie (dieOf core) d).takeTrap c 0 0))
        ∧ (∀ i, lineParityOk x.data = true → lineMalformed x.data = false → pcOk s.cur.c.pc = true →
          (s.cur.c.arriving = true → lineTgt x.data k = true) → restNop x.data k = false → k ∉ linePairs x.data →
          decode (slotWord x.data k) = .ok i → step s = exec i (u.setDie (dieOf core) { d with soft := d.soft + 1 })))
    ∧ (readable → whole → lineMalformed l.data = true →
        step s = .next (s.takeTrap { cls := 0, reason := 8 } (wordForm w).1 (wordForm w).2))
    ∧ (readable → whole → lineMalformed l.data = false → s.cur.c.arriving = true →
        (pcOk s.cur.c.pc = false ∨ lineTgt l.data k = false) →
        step s = .next (s.takeTrap { cls := 8 } (wordForm w).1 (wordForm w).2))
    ∧ (readable → whole → lineMalformed l.data = false → s.cur.c.arriving = false → 4 < k →
        step s = .next (s.mapCtl (fun c => { c with pc := lineAddr c.pc + 64 })))
    ∧ (readable → sound → restNop l.data k = true →
        step s = .next (s.mapCtl (fun c => { c with pc := lineAddr c.pc + 64, arriving := false })))
    ∧ (readable → sound → restNop l.data k = false → k ∈ linePairs l.data → s.cur.sch.skid ≠ some 1 →
        step s = execPair w (slotWord l.data (k + 1)) s)
    ∧ (readable → sound → restNop l.data k = false → k ∈ linePairs l.data → s.cur.sch.skid = some 1 →
        ∃ t, step s = .next t ∧ tskHalted t.cur.t.tskid = true ∧ t.cur.c = s.cur.c ∧ t.cur.r = s.cur.r ∧ OthersKept s t)
    ∧ (∀ r, readable → sound → restNop l.data k = false → k ∉ linePairs l.data → decode w = .error r →
        step s = .next (s.takeTrap { cls := 0, reason := r.code } (wordForm w).1 (wordForm w).2))

open Sys2Proof Sys2Proof.Machine in
/-- Every step keeps every memory of the machine in canonical form (the model's own form, log entry 5). -/
def Obligations.MemoryStaysCanonical : Prop :=
  ∀ s t : State, s.memoryWf → step s = .next t → t.memoryWf

open Sys2Proof Sys2Proof.Machine in
/-- Every step keeps the numbers of the streams distinct (the model's own numbering, log entry 1): the premise of the
statements about what happens to one stream by its number. -/
def Obligations.StreamsStayDistinct : Prop :=
  ∀ s t : State, s.streamsDistinct → step s = .next t → t.streamsDistinct

open Sys2Proof Sys2Proof.Machine in
/-- The state right after reset meets the two invariants of the model: its memories are in canonical form (log entry 5) and
its streams have numbers of their own (log entry 1). -/
def Obligations.ResetMeetsTheInvariants : Prop :=
  State.reset.memoryWf ∧ State.reset.streamsDistinct

open Sys2Proof Sys2Proof.Machine in
/-- Two canonical memories that read alike are equal, and a write of bytes is read back and moves no other byte (R3; the
canonical form is the model's own, log entry 5). -/
def Obligations.MemoryReadsBack : Prop :=
  (∀ m n : List Host.Cell, memWf m = true → memWf n = true → (∀ k, memGet m k = memGet n k) → m = n)
  ∧ ∀ (m : List Host.Cell) (k : Nat) (bs : List Byte), memWf m = true →
      memRead (memWrite m k bs) k bs.length = bs
      ∧ (∀ j, (j < k ∨ k + bs.length ≤ j) → memGet (memWrite m k bs) j = memGet m j)
      ∧ memNat (memWrite m k bs) k bs.length = leNat bs

open Sys2Proof Sys2Proof.Machine in
/-- The reset values that the spec gives: registers of R40, R88, R91, R145, R178, R215, R328 and R332. -/
def Obligations.ResetValues : Prop :=
  State.reset.cur.r.getS 0 = 0 ∧ State.reset.cur.r.getP 0 = 0xFFFFFFFF
    ∧ (∀ n, State.reset.cur.r.fullS n = true) ∧ (∀ n, State.reset.cur.r.fullV n = true)
    ∧ (∀ n, (State.reset.cur.r.getV n).tag = 0) ∧ State.reset.cur.y.flg = 0 ∧ State.reset.cur.y.ppoll = 1024
    ∧ State.reset.cur.t.tpc = 0 ∧ State.reset.cur.t.tstat = 0 ∧ State.reset.cur.t.tskid = 0
    ∧ State.reset.cur.t.tsfov = 0 ∧ State.reset.cur.c.priv = false ∧ State.reset.cur.c.joins = []
    ∧ (∀ c, getBits (State.reset.cluster c).mxcfg 16 8 = 2 ∧ getBits (State.reset.cluster c).mxcfg 0 16 = 64)
    ∧ (∀ d, (State.reset.die d).period = 4096 ∧ (State.reset.die d).window = 256 ∧ (State.reset.die d).order = 0)
    ∧ getBits State.reset.crown.fwstat 16 8 = 1 ∧ State.reset.crown.trial = 6000000000
    ∧ State.reset.crown.wdog = 100000000 ∧ State.reset.harts = [] ∧ State.reset.copies = []

/-! ### The checks at issue (R37, R40, R58, R89, R90, R198) -/

open Sys2Proof Sys2Proof.Machine in
/-- R37: every instruction but NOP and JOIN that selects no lane writes nothing, checks no register, and counts as issued.
R58: an ILLEGAL instruction raises class 0 with the lowest reason code whatever its guard, once every older load of its
stream is confirmed; nothing of it is done. R40: a source read in trap mode that is empty raises class 2; another empty
source, or an empty destination, holds the instruction at issue and changes nothing. R89, R90: the first source in field
order that is POISON raises class 11, and one whose format code is not among those required raises class 1 with the tag found
and the code required. Which of several traps comes first, and that an empty source in trap mode traps before an empty register
is waited for, is the model's choice (log entries 34, 61 and 68). -/
def Obligations.IssueChecks : Prop :=
  (∀ (i : Instr) (w : BitVec 96) (s : State), encode i = some w → i ≠ .nop → (∀ f, i ≠ .join f) →
      illegal i s = none → loadWait i s.cur = false → laneMask s.cur (guardOf w) = 0 →
      ∃ t, exec i s = .next t ∧ WroteNone s t)
  ∧ (∀ (i : Instr) (w : BitVec 96) (s : State) (r : Nat), encode i = some w → illegal i s = some r → settled s.cur = true →
      exec i s = .next (s.takeTrap { cls := 0, reason := r } (w.toNat / 2 ^ 92) (w.toNat / 2 ^ 86 % 64)))
  ∧ (∀ (i : Instr) (w : BitVec 96) (s : State), encode i = some w → i ≠ .nop →
      illegal i s = none → loadWait i s.cur = false → laneMask s.cur (guardOf w) ≠ 0 →
      (emptyTrap (uses i) s.cur.r = true → settled s.cur = true →
        exec i s = .next (s.takeTrap { cls := 2 } (w.toNat / 2 ^ 92) (w.toNat / 2 ^ 86 % 64)))
      ∧ (emptyTrap (uses i) s.cur.r = false → emptyWait (uses i) s.cur.r = true →
        exec i s = .next { s with picked := false }))
  ∧ (∀ (i : Instr) (w : BitVec 96) (s : State) (a b : List VSrc) (x : VSrc), encode i = some w → i ≠ .nop →
      illegal i s = none → loadWait i s.cur = false → laneMask s.cur (guardOf w) ≠ 0 →
      emptyTrap (uses i) s.cur.r = false → emptyWait (uses i) s.cur.r = false → settled s.cur = true →
      s.cur.r.sbad = [] → (uses i).vs = a ++ x :: b →
      (∀ y ∈ a, tagCode (s.cur.r.getV y.r).tag ≠ 15
        ∧ ∀ cs, y.need = some cs → tagCode (s.cur.r.getV y.r).tag ∈ cs) →
      let found := (s.cur.r.getV x.r).tag
      (tagCode found = 15 → ∃ d, exec i s = .next (s.takeTrap { cls := 11, detail := d }
          (w.toNat / 2 ^ 92) (w.toNat / 2 ^ 86 % 64)))
      ∧ (∀ c cs, tagCode found ≠ 15 → x.need = some (c :: cs) → tagCode found ∉ (c :: cs) →
          exec i s = .next (s.takeTrap { cls := 1, detail := BitVec.ofNat 64 (found.toNat + c * 2 ^ 24) }
            (w.toNat / 2 ^ 92) (w.toNat / 2 ^ 86 % 64))))

open Sys2Proof Sys2Proof.Machine in
/-- R58 reasons 5 and 6, R104, R355: a supervisor form at user privilege, RFT outside a handler, a supervisor register named
by SRR or SRW, a form of class 0xA in a warp, and a guard in Bowler's stream are ILLEGAL with their reasons. -/
def Obligations.PrivilegeChecked : Prop :=
  ∀ (i : Instr) (w : BitVec 96) (s : State), encode i = some w → i.wellFormed = true →
    (∀ x ∈ (uses i).vs, x.r < s.cur.pl.regs) → (∀ r ∈ (uses i).vd, r < s.cur.pl.regs) →
    ((s.cur.role = .bowler ∨ s.cur.c.priv = false) → w.toNat / 2 ^ 92 = 12 → 2 ≤ w.toNat / 2 ^ 86 % 64 →
      illegal i s = some 5)
    ∧ (∀ f, i = .rft f → s.cur.role = .warp → tsInh s.cur.t.tstat = false → illegal i s = some 5)
    ∧ (∀ f, (i = .srr f ∨ i = .srw f) → f.imm.toNat ∈ [0x020, 0x022, 0x040, 0x041, 0x042, 0x043, 0x044, 0x045, 0x046, 0x047] →
        s.cur.role = .warp → illegal i s = some 5)
    ∧ (s.cur.role = .warp → w.toNat / 2 ^ 92 = 10 → illegal i s = some 6)
    ∧ (s.cur.role = .bowler → guardOf w ≠ { gp := 0, gs := false } → w.toNat / 2 ^ 92 ≠ 12 → illegal i s = some 6)

/-! ### Class 0x0 (R97 to R104) -/

open Sys2Proof Sys2Proof.Machine in
/-- R97, R98, R102: moves, sums, differences, products and scaled sums at the width of ST. R98: the high half of the full
product, signed or unsigned. -/
def Obligations.ScalarArithmetic : Prop :=
  (∀ s : State,
      (∀ f : S3, Issues (.smov f) f.g s → EndsS (.smov f) f.sd.toNat (stBack f.st (stLow f.st (S3.a f s))) s)
      ∧ (∀ f : S3, Issues (.sadd f) f.g s →
          EndsS (.sadd f) f.sd.toNat (stBack f.st (stLow f.st (S3.a f s) + stLow f.st (S3.b f s))) s)
      ∧ (∀ f : S3, Issues (.ssub f) f.g s →
          EndsS (.ssub f) f.sd.toNat (stBack f.st (stLow f.st (S3.a f s) - stLow f.st (S3.b f s))) s)
      ∧ (∀ f : S3, Issues (.smul f) f.g s →
          EndsS (.smul f) f.sd.toNat (stBack f.st (stLow f.st (S3.a f s) * stLow f.st (S3.b f s))) s)
      ∧ (∀ f : S3, Issues (.slea f) f.g s →
          EndsS (.slea f) f.sd.toNat (stBack f.st (stLow f.st (S3.a f s)
            + (stLow f.st (S3.b f s) <<< (f.sub.toNat % 8)) + stLow f.st (S3.c f s))) s)
      ∧ (∀ f : SI, Issues (.saddi f) f.g s →
          EndsS (.saddi f) f.sd.toNat
            (stBack f.st (stLow f.st (s.cur.r.getS f.sa.toNat) + stLow f.st (f.imm.signExtend 64))) s)
      ∧ (∀ f : SI, Issues (.smovi f) f.g s →
          EndsS (.smovi f) f.sd.toNat
            (stBack f.st (stLow f.st (if WellFormed.stSigned f.st then f.imm.signExtend 64 else f.imm.setWidth 64))) s)
      ∧ (∀ f : SI, Issues (.smoviHi f) f.g s →
          EndsS (.smoviHi f) f.sd.toNat
            ((f.imm.setWidth 16 ++ (s.cur.r.getS f.sd.toNat).setWidth 48 : BitVec (16 + 48)).setWidth 64) s))
  ∧ (∀ (s : State) (f : S3),
      (Issues (.smulh f) f.g s →
        EndsS (.smulh f) f.sd.toNat (stBack f.st (((stLow f.st (S3.a f s)).signExtend (2 * stWidth f.st)
          * (stLow f.st (S3.b f s)).signExtend (2 * stWidth f.st)).extractLsb' (stWidth f.st) (stWidth f.st))) s)
      ∧ (Issues (.smulhn f) f.g s →
        EndsS (.smulhn f) f.sd.toNat (stBack f.st (((stLow f.st (S3.a f s)).setWidth (2 * stWidth f.st)
          * (stLow f.st (S3.b f s)).setWidth (2 * stWidth f.st)).extractLsb' (stWidth f.st) (stWidth f.st))) s))

open Sys2Proof Sys2Proof.Machine in
/-- R99: quotients and remainders rounded towards zero, division by zero, and the most negative value divided by minus one.
-/
def Obligations.ScalarDivision : Prop :=
  ∀ (s : State) (f : S3),
    let a := stLow f.st (S3.a f s)
    let b := stLow f.st (S3.b f s)
    let sg := WellFormed.stSigned f.st
    (Issues (.sdiv f) f.g s →
      EndsS (.sdiv f) f.sd.toNat (stBack f.st (if b = 0 then BitVec.allOnes (stWidth f.st) else a.sdiv b)) s)
    ∧ (Issues (.sdivn f) f.g s →
      EndsS (.sdivn f) f.sd.toNat (stBack f.st (if b = 0 then BitVec.allOnes (stWidth f.st) else a.udiv b)) s)
    ∧ (Issues (.srem f) f.g s →
      EndsS (.srem f) f.sd.toNat (stBack f.st (if b = 0 then a else if sg then a.srem b else a.umod b)) s)
    ∧ (Issues (.sdiv f) f.g s → a = BitVec.intMin (stWidth f.st) → b = -1 →
      EndsS (.sdiv f) f.sd.toNat (stBack f.st a) s)
    ∧ (Issues (.srem f) f.g s → sg = true → a = BitVec.intMin (stWidth f.st) → b = -1 →
      EndsS (.srem f) f.sd.toNat 0 s)

open Sys2Proof Sys2Proof.Machine in
/-- R97, R98: bitwise operations, and shifts and rotates whose count is the whole of Sb. -/
def Obligations.ScalarLogicAndShifts : Prop :=
  ∀ (s : State) (f : S3),
    let a := stLow f.st (S3.a f s)
    let b := stLow f.st (S3.b f s)
    let n := (S3.b f s).toNat
    (Issues (.sand f) f.g s → EndsS (.sand f) f.sd.toNat (stBack f.st (a &&& b)) s)
    ∧ (Issues (.sor f) f.g s → EndsS (.sor f) f.sd.toNat (stBack f.st (a ||| b)) s)
    ∧ (Issues (.sxor f) f.g s → EndsS (.sxor f) f.sd.toNat (stBack f.st (a ^^^ b)) s)
    ∧ (Issues (.sandn f) f.g s → EndsS (.sandn f) f.sd.toNat (stBack f.st (a &&& ~~~ b)) s)
    ∧ (Issues (.sshl f) f.g s →
        EndsS (.sshl f) f.sd.toNat (stBack f.st (if n ≥ stWidth f.st then 0 else a <<< n)) s)
    ∧ (Issues (.sshr f) f.g s →
        EndsS (.sshr f) f.sd.toNat (stBack f.st (if n ≥ stWidth f.st then 0 else a >>> n)) s)
    ∧ (Issues (.ssra f) f.g s →
        EndsS (.ssra f) f.sd.toNat (stBack f.st (a.sshiftRight (min n (stWidth f.st - 1)))) s)
    ∧ (Issues (.srot f) f.g s → EndsS (.srot f) f.sd.toNat (stBack f.st (a.rotateLeft (n % stWidth f.st))) s)

open Sys2Proof Sys2Proof.Machine in
/-- R98, R100: minima, maxima, selection and comparison, ordered as ST is signed or not, and the booleans of SBOOL. -/
def Obligations.ScalarSelection : Prop :=
  ∀ (s : State) (f : S3),
    let a := stLow f.st (S3.a f s)
    let b := stLow f.st (S3.b f s)
    let lt := if WellFormed.stSigned f.st then a.slt b else a.ult b
    let gt := if WellFormed.stSigned f.st then b.slt a else b.ult a
    let ba := s.cur.r.getB f.ba.toNat ^^ f.bn
    let c := match f.sub.toNat % 8 with
      | 0 => a == b
      | 1 => a != b
      | 2 => lt
      | 3 => !gt
      | 4 => gt
      | _ => !lt
    let x := S3.a f s != 0
    (Issues (.smin f) f.g s → EndsS (.smin f) f.sd.toNat (stBack f.st (if lt then a else b)) s)
    ∧ (Issues (.smax f) f.g s → EndsS (.smax f) f.sd.toNat (stBack f.st (if gt then a else b)) s)
    ∧ (Issues (.sminn f) f.g s → EndsS (.sminn f) f.sd.toNat (stBack f.st (if lt then a else b)) s)
    ∧ (Issues (.smaxn f) f.g s → EndsS (.smaxn f) f.sd.toNat (stBack f.st (if gt then a else b)) s)
    ∧ (Issues (.ssel f) f.g s → EndsS (.ssel f) f.sd.toNat (stBack f.st (if ba then a else b)) s)
    ∧ (Issues (.scmp f) f.g s → EndsB (.scmp f) f.bd.toNat (match f.sub.toNat / 8 % 4 with
        | 0 => c
        | 1 => c && ba
        | 2 => c || ba
        | _ => c ^^ ba) s)
    ∧ (Issues (.sbool f) f.g s → f.sub ≠ 5 → EndsB (.sbool f) f.bd.toNat (match f.sub.toNat with
        | 0 => ba
        | 1 => ba && x
        | 2 => ba || x
        | 3 => ba ^^ x
        | 4 => x
        | 6 => false
        | _ => true) s)
    ∧ (Issues (.sbool f) f.g s → f.sub = 5 → EndsS (.sbool f) f.sd.toNat (if ba then 1 else 0) s)

open Sys2Proof Sys2Proof.Machine in
/-- R98, R101: leading zeros, population count, and the bit fields of SBFX and SBFI, bit by bit. -/
def Obligations.ScalarBitFields : Prop :=
  ∀ s : State,
    (∀ f : S3, Issues (.sclz f) f.g s →
      ∃ n, n ≤ stWidth f.st ∧ EndsS (.sclz f) f.sd.toNat (stBack f.st (BitVec.ofNat (stWidth f.st) n)) s
        ∧ (∀ j, j < n → (stLow f.st (S3.a f s)).getMsbD j = false)
        ∧ (n < stWidth f.st → (stLow f.st (S3.a f s)).getMsbD n = true))
    ∧ (∀ f : S3, Issues (.spopc f) f.g s →
      EndsS (.spopc f) f.sd.toNat (stBack f.st (BitVec.ofNat (stWidth f.st)
        ((List.range (stWidth f.st)).countP (fun j => (stLow f.st (S3.a f s)).getLsbD j)))) s)
    ∧ (∀ f : SI, Issues (.sbfx f) f.g s →
      let pos := f.imm.toNat % 64
      let len := f.imm.toNat / 64 % 128
      let x := s.cur.r.getS f.sa.toNat
      ∃ v, EndsS (.sbfx f) f.sd.toNat v s ∧ ∀ j, j < 64 →
        v.getLsbD j = if len = 0 then false else if j < len then x.getLsbD (pos + j)
          else f.st == .i64 && x.getLsbD (pos + (len - 1)))
    ∧ (∀ f : SI, Issues (.sbfi f) f.g s →
      let pos := f.imm.toNat % 64
      let len := f.imm.toNat / 64 % 128
      let x := s.cur.r.getS f.sa.toNat
      let d := s.cur.r.getS f.sd.toNat
      ∃ v, EndsS (.sbfi f) f.sd.toNat v s ∧ ∀ j, j < 64 →
        v.getLsbD j = if pos ≤ j ∧ j < pos + len then x.getLsbD (j - pos) else d.getLsbD j)

/-! ### Traps and the return from one (R330 to R335, R354, R355) -/

open Sys2Proof Sys2Proof.Machine in
/-- R330, R331, R332, R335: a trap of a warp that is in no handler and whose workgroup is neither halted nor being saved. TPC, TSTAT, the side
buffer, the privilege and the code address are as R330 gives; EM, the pending joins, every register and every byte of memory
are unchanged; and every live sibling is to stop within 16 instructions of the issue of the trapping one (R333). R330, R334: a second trap inside a handler
ends the workgroup with the machine event of its class; a trap of a warp whose workgroup is halted stays pending, and the
warp stops before the trapping instruction, unless it comes in the clock of the lead's and from a lower wave slot: it then leads,
and the other's trap is pending. R319: a trap of a warp that a save is stopping is pending. -/
def Obligations.TrapEntry : Prop :=
  (∀ (s : State) (c : Cause) (icls fn o : Nat), s.cur.role = .warp → tsInh s.cur.t.tstat = false →
      (s.group s.cur.pl.group).halt = none → s.departing = false → c.cls < 14 →
      let t := s.takeTrap c icls fn o
      t.cur.t.tpc = (if c.cls = 12 ∨ c.cls = 13 then nextPc s.cur.c.pc else s.cur.c.pc)
      ∧ getBits t.cur.t.tstat 0 4 = c.cls ∧ getBits t.cur.t.tstat 4 8 = c.reason % 256
      ∧ getBits t.cur.t.tstat 12 4 = c.kind % 16 ∧ bit t.cur.t.tstat 16 = false
      ∧ bit t.cur.t.tstat 17 = s.cur.c.priv ∧ bit t.cur.t.tstat 18 = true ∧ bit t.cur.t.tstat 19 = true
      ∧ bit t.cur.t.tstat 20 = c.second
      ∧ (∀ n, n < 16 → bit t.cur.t.tstat (24 + n) = (bit s.cur.t.tstat (24 + n) && n != c.cls))
      ∧ t.cur.c.priv = true
      ∧ t.cur.c.pc = ((s.group s.cur.pl.group).hbase &&& ~~~ 4095#64) + BitVec.ofNat 64 (256 * c.cls)
      ∧ t.cur.c.arriving = false ∧ t.cur.c.em = s.cur.c.em ∧ t.cur.c.joins = s.cur.c.joins ∧ t.cur.r = s.cur.r
      ∧ t.cur.y = s.cur.y ∧ t.cur.m = s.cur.m
      ∧ t.cur.t.side.vaddr = c.va ∧ t.cur.t.side.pc = s.cur.c.pc ∧ t.cur.t.side.detail = c.detail
      ∧ t.cur.t.side.lanes = faultMask c.lanes ∧ t.cur.t.side.cls = BitVec.ofNat 4 c.cls
      ∧ t.cur.t.side.fn = BitVec.ofNat 6 fn ∧ t.cur.t.side.icls = BitVec.ofNat 4 icls
      ∧ t.cur.t.tscr = s.cur.t.tscr ∧ t.cur.t.tsfov = s.cur.t.tsfov
      ∧ (t.group s.cur.pl.group).halt = some s.cur.id
      ∧ (∀ h ∈ t.harts, h.role = .warp → h.live = true → h.pl.group = s.cur.pl.group →
          (∃ n, n ≤ 16 ∧ h.sch.skid = some n ∧ (n = 0 ∨ issuedSince c.since h + n ≤ 16))
            ∧ getBits h.t.tskid 16 5 = s.cur.pl.slot % 32)
      ∧ t.mem = s.mem ∧ t.memBad = s.memBad ∧ t.hostMem = s.hostMem ∧ t.copies = s.copies)
  ∧ (∀ (s : State) (c : Cause) (icls fn o : Nat), s.cur.role = .warp → c.cls < 14 →
      let t := s.takeTrap c icls fn o
      (tsInh s.cur.t.tstat = true →
        (t.group s.cur.pl.group).phase = .ended ∧ t.warpsOf s.cur.pl.group = [] ∧ t.mem = s.mem
        ∧ ∃ e, t.fe.raised = s.fe.raised ++ [e] ∧ e.e.type = 4 ∧ e.e.code = BitVec.ofNat 32 (0x80000000 + c.cls)
            ∧ e.e.detail = s.cur.c.pc)
      ∧ (tsInh s.cur.t.tstat = false → s.departing = true →
        bit t.cur.t.tstat (24 + c.cls) = true ∧ t.cur.t.tpc = s.cur.t.tpc ∧ t.cur.c.pc = s.cur.c.pc
        ∧ t.cur.c.priv = s.cur.c.priv ∧ t.cur.r = s.cur.r ∧ t.harts = s.harts ∧ t.groups = s.groups ∧ t.mem = s.mem)
      ∧ (∀ l u, tsInh s.cur.t.tstat = false → s.departing = false → s.displaced = some (l, u) → (∀ h ∈ s.harts, h.id = l.id → h = l) →
        getBits t.cur.t.tstat 0 4 = c.cls ∧ bit t.cur.t.tstat 18 = true ∧ bit t.cur.t.tstat 19 = true
        ∧ (t.group s.cur.pl.group).halt = some s.cur.id ∧ t.mem = s.mem
        ∧ ∀ h ∈ t.harts, h.id = l.id → bit h.t.tstat (24 + tsClass l.t.tstat) = true ∧ h.c.pc = u.pc ∧ h.c.priv = u.priv
            ∧ h.t.tpc = u.tpc)
      ∧ (tsInh s.cur.t.tstat = false → s.departing = false → s.displaced = none → (s.group s.cur.pl.group).halt ≠ none →
        bit t.cur.t.tstat (24 + c.cls) = true
        ∧ (∀ n, n < 16 → n ≠ c.cls → bit t.cur.t.tstat (24 + n) = bit s.cur.t.tstat (24 + n))
        ∧ t.cur.t.tpc = s.cur.t.tpc ∧ t.cur.c.pc = s.cur.c.pc ∧ t.cur.c.priv = s.cur.c.priv ∧ t.cur.r = s.cur.r
        ∧ tskHalted t.cur.t.tskid = true ∧ t.cur.sch.skid = some 0 ∧ t.harts = s.harts ∧ t.mem = s.mem))

open Sys2Proof Sys2Proof.Machine in
/-- R331, R354: TRAP and BRK enter classes 12 and 13 with their operand as the reason, and the return address is the next
instruction. R334, R355: RFT restores the privilege, clears INH and LEAD, resumes at TPC, asks for the replay of exactly
LANES after a class 3 unless `full` is given, and lifts the halt that its warp leads: every halted warp of the group clears
HALTED. -/
def Obligations.SoftwareTrapsAndReturn : Prop :=
  (∀ (s : State) (f : FX), s.cur.role = .warp → tsInh s.cur.t.tstat = false → (s.group s.cur.pl.group).halt = none →
      s.departing = false →
      let Entered := fun (i : Instr) (c : Nat) => ∃ t, exec i s = .next t
        ∧ getBits t.cur.t.tstat 0 4 = c ∧ getBits t.cur.t.tstat 4 8 = f.imm.toNat % 256
        ∧ t.cur.t.tpc = nextPc s.cur.c.pc ∧ t.cur.c.priv = true
        ∧ t.cur.c.pc = ((s.group s.cur.pl.group).hbase &&& ~~~ 4095#64) + BitVec.ofNat 64 (256 * c)
        ∧ t.cur.r = s.cur.r ∧ t.cur.c.em = s.cur.c.em ∧ t.cur.y = s.cur.y ∧ t.mem = s.mem
      (Issues (.trap f) f.g s → Entered (.trap f) 12) ∧ (Issues (.brk f) f.g s → Entered (.brk f) 13))
  ∧ (∀ (s : State) (f : FX), Issues (.rft f) f.g s → s.cur.role = .warp →
      ∃ t, exec (.rft f) s = .next t
        ∧ t.cur.c.pc = s.cur.t.tpc ∧ t.cur.c.priv = bit s.cur.t.tstat 17
        ∧ bit t.cur.t.tstat 18 = false ∧ bit t.cur.t.tstat 19 = false
        ∧ (∀ n, n < 16 → bit t.cur.t.tstat (24 + n) = bit s.cur.t.tstat (24 + n))
        ∧ t.cur.c.replay = (if getBits s.cur.t.tstat 0 4 = 3 ∧ s.cur.t.side.lanes ≠ 0 ∧ f.sub.getLsbD 0 = false
            then some s.cur.t.side.lanes else none)
        ∧ t.cur.c.em = s.cur.c.em ∧ t.cur.c.joins = s.cur.c.joins ∧ t.cur.r = s.cur.r ∧ t.cur.y = s.cur.y
        ∧ t.cur.t.side = s.cur.t.side ∧ t.cur.t.tscr = s.cur.t.tscr ∧ t.mem = s.mem ∧ t.copies = s.copies
        ∧ ((s.group s.cur.pl.group).halt = some s.cur.id →
            (t.group s.cur.pl.group).halt = none
            ∧ ∀ h ∈ t.harts, h.role = .warp → h.pl.group = s.cur.pl.group →
                tskHalted h.t.tskid = false ∧ h.sch.skid = none)
        ∧ ((s.group s.cur.pl.group).halt ≠ some s.cur.id → t.harts = s.harts ∧ t.groups = s.groups))

/-! ### Class 0x1 (R294 to R303) -/

open Sys2Proof Sys2Proof.Machine in
/-- R32, R52, R299: the branch forms. A transfer taken leaves the target's check to its arrival; one that is not taken goes
to the next slot. LOOP writes its count back either way. BRANY and BRALL are ILLEGAL in a Bowler stream. -/
def Obligations.Branches : Prop :=
  ∀ (s : State) (f : FB),
    let t0 := lineAddr s.cur.c.pc + (f.disp.signExtend 64 <<< 6) + f.slot.setWidth 64
    let m := laneMask s.cur f.g
    let Goes := fun (i : Instr) (taken : Prop) (target : Dword) (r : Regs) => ∃ t, exec i s = .next t
      ∧ (taken → t.cur.c.pc = target ∧ t.cur.c.arriving = true)
      ∧ (¬ taken → t.cur.c.pc = nextPc s.cur.c.pc ∧ t.cur.c.arriving = false)
      ∧ t.cur.c.issued = s.cur.c.issued + 1 ∧ t.cur.r = r ∧ OthersKept s t ∧ HartKept s.cur t.cur
    let p := s.cur.r.getP f.pa.toNat
    let x := s.cur.r.getS f.sa.toNat - 1
    (Issues (.br f) f.g s → Goes (.br f) True t0 s.cur.r)
    ∧ (Issues (.brc f) f.g s → Goes (.brc f) ((s.cur.r.getB f.ba.toNat ^^ f.bn) = true) t0 s.cur.r)
    ∧ (Issues (.bri f) f.g s → Goes (.bri f) True (s.cur.r.getS f.sa.toNat) s.cur.r)
    ∧ (Issues (.brany f) f.g s → Goes (.brany f) (p &&& m ≠ 0) t0 s.cur.r)
    ∧ (Issues (.brall f) f.g s → Goes (.brall f) (p &&& m = m ∧ m ≠ 0) t0 s.cur.r)
    ∧ (Issues (.loop f) f.g s → Goes (.loop f) (x ≠ 0) t0 (s.cur.r.setS f.sa.toNat x))
    ∧ (s.cur.role = .bowler → Instr.wellFormed (.brany f) = true → illegal (.brany f) s = some 6)
    ∧ (s.cur.role = .bowler → Instr.wellFormed (.brall f) = true → illegal (.brall f) s = some 6)

open Sys2Proof Sys2Proof.Machine in
/-- R177, R300: CALL of a warp lowers SPTR by 8 and queues the store of the return address there, at core scope; of a Bowler
stream it pushes its return stack. RET of a Bowler stream pops it. Neither an overflow nor an underflow changes anything:
class 7. -/
def Obligations.Calls : Prop :=
  ∀ (s : State) (f : FB),
    let target := if f.sub = 1 then s.cur.r.getS f.sa.toNat
      else lineAddr s.cur.c.pc + (f.disp.signExtend 64 <<< 6) + f.slot.setWidth 64
    let back := nextPc s.cur.c.pc
    let sp := s.cur.y.sptr - 8
    (Issues (.call f) f.g s → s.cur.role = .warp → s.requestRoom (framesOf [(sp, 8)]) = true →
      pushRefused s.cur 8 8 [{ lane := 0, ea := sp, data := leBytes 8 back.toNat }] = none →
      ∃ t st, exec (.call f) s = .next t ∧ t.cur.c.pc = target ∧ t.cur.c.arriving = true ∧ t.cur.y.sptr = sp
        ∧ t.cur.m.stores = s.cur.m.stores ++ [st] ∧ st.elems = [{ lane := 0, ea := sp, data := leBytes 8 back.toNat }]
        ∧ st.scope = .core ∧ t.cur.r = s.cur.r ∧ OthersKept s t)
    ∧ (Issues (.call f) f.g s → s.cur.role = .warp → s.cur.y.sptr.toNat % 8 = 0 →
      s.cur.y.sptr.toInt - 8 < slimLimit s.cur.y.slim →
      exec (.call f) s = .next (s.takeTrap { cls := 7 } 1 3))
    ∧ (Issues (.call f) f.g s → s.cur.role = .bowler → s.cur.bow.rstack.length < 8 →
      ∃ t, exec (.call f) s = .next t ∧ t.cur.c.pc = target ∧ t.cur.c.arriving = true
        ∧ t.cur.bow.rstack = back :: s.cur.bow.rstack ∧ t.cur.r = s.cur.r ∧ OthersKept s t)
    ∧ (Issues (.call f) f.g s → s.cur.role = .bowler → s.cur.bow.rstack.length = 8 →
      exec (.call f) s = .next (s.takeTrap { cls := 7 } 1 3))
    ∧ (∀ ws x u, Issues (.ret f) f.g s → s.cur.role = .warp → coreCause (popChecks 8 8 s) = none →
      (∀ st ∈ s.cur.m.stores, storeMeets st s.cur.y.sptr 8 = false) →
      s.xlatWords {} s.cur.c.priv (wordsAt s.cur.y.sptr 8) = (.ok ws, u) → u.readWaits ws = false →
      (u.readElem u.me s.cur.y.sptr 8 ws).1 = (x, false) →
      ∃ t, exec (.ret f) s = .next t ∧ t.cur.c.pc = x ∧ t.cur.c.arriving = true ∧ t.cur.y.sptr = s.cur.y.sptr + 8)
    ∧ (∀ a rest, Issues (.ret f) f.g s → s.cur.role = .bowler → s.cur.bow.rstack = a :: rest →
      ∃ t, exec (.ret f) s = .next t ∧ t.cur.c.pc = a ∧ t.cur.c.arriving = true ∧ t.cur.bow.rstack = rest
        ∧ t.cur.r = s.cur.r ∧ OthersKept s t)
    ∧ (Issues (.ret f) f.g s → s.cur.role = .bowler → s.cur.bow.rstack = [] →
      exec (.ret f) s = .next (s.takeTrap { cls := 7 } 1 4))

open Sys2Proof Sys2Proof.Machine in
/-- R294, R295, R301: PARK adds the lanes of m to the pending join of its target and goes on with the others; a JOIN takes
back the lanes parked at its own address, whatever its guard; LEXIT drops lanes; MSET reads the masks. -/
def Obligations.Divergence : Prop :=
  ∀ s : State,
    (∀ f : FB, Issues (.park f) f.g s →
      let m := laneMask s.cur f.g &&& s.cur.r.getP f.pa.toNat
      let a := lineAddr s.cur.c.pc + (f.disp.signExtend 64 <<< 6) + f.slot.setWidth 64
      (m = 0 → ∃ t, exec (.park f) s = .next t ∧ WroteNone s t)
      ∧ (m ≠ 0 → s.cur.c.em &&& ~~~ m ≠ 0 → (∀ j ∈ s.cur.c.joins, j.addr ≠ a) → s.cur.c.joins.length < 16 →
          ∃ t, exec (.park f) s = .next t ∧ t.cur.c.em = s.cur.c.em &&& ~~~ m
            ∧ t.cur.c.joins = s.cur.c.joins ++ [{ addr := a, mask := m }] ∧ t.cur.c.pc = nextPc s.cur.c.pc
            ∧ t.cur.r = s.cur.r ∧ OthersKept s t)
      ∧ (∀ x y k, m ≠ 0 → s.cur.c.em &&& ~~~ m ≠ 0 → s.cur.c.joins = x ++ { addr := a, mask := k } :: y →
          (∀ j ∈ x ++ y, j.addr ≠ a) →
          ∃ t, exec (.park f) s = .next t ∧ t.cur.c.em = s.cur.c.em &&& ~~~ m
            ∧ t.cur.c.joins = x ++ { addr := a, mask := k ||| m } :: y ∧ OthersKept s t)
      ∧ (m ≠ 0 → (∀ j ∈ s.cur.c.joins, j.addr ≠ a) → 16 ≤ s.cur.c.joins.length →
          exec (.park f) s = .next (s.takeTrap { cls := 7 } 1 8))
      ∧ (m ≠ 0 → s.cur.c.em &&& ~~~ m = 0 → s.cur.c.joins = [] →
          ∃ t, exec (.park f) s = .next t ∧ t.cur.c.em = m ∧ t.cur.c.joins = [] ∧ t.cur.c.pc = a
            ∧ t.cur.c.arriving = true ∧ t.cur.r = s.cur.r ∧ OthersKept s t))
    ∧ (∀ f : FX, illegal (.join f) s = none → loadWait (.join f) s.cur = false →
        (∀ x y k, s.cur.c.joins = x ++ { addr := s.cur.c.pc, mask := k } :: y →
          (∀ j ∈ x ++ y, j.addr ≠ s.cur.c.pc) →
          ∃ t, exec (.join f) s = .next t ∧ t.cur.c.em = s.cur.c.em ||| k ∧ t.cur.c.joins = x ++ y
            ∧ t.cur.c.pc = nextPc s.cur.c.pc ∧ t.cur.r = s.cur.r ∧ OthersKept s t)
        ∧ ((∀ j ∈ s.cur.c.joins, j.addr ≠ s.cur.c.pc) → ∃ t, exec (.join f) s = .next t ∧ WroteNone s t))
    ∧ (∀ f : FX, Issues (.lexit f) f.g s →
        let m := laneMask s.cur f.g &&& s.cur.r.getP f.pa.toNat
        s.cur.c.em &&& ~~~ m ≠ 0 →
        ∃ t, exec (.lexit f) s = .next t ∧ t.cur.c.em = s.cur.c.em &&& ~~~ m ∧ t.cur.c.joins = s.cur.c.joins
          ∧ t.cur.c.pc = nextPc s.cur.c.pc ∧ t.cur.r = s.cur.r ∧ OthersKept s t)
    ∧ (∀ f : FX, Issues (.msetEm f) f.g s →
        ∃ t, exec (.msetEm f) s = .next t ∧ WroteP f.pa.toNat s.cur.c.em s t)
    ∧ (∀ f : FX, Issues (.msetParked f) f.g s →
        ∃ t v, exec (.msetParked f) s = .next t ∧ WroteP f.pa.toNat v s t
          ∧ ∀ l, v.getLsbD l = s.cur.c.joins.any (fun j => j.mask.getLsbD l))

open Sys2Proof Sys2Proof.Machine in
/-- R294: PARK, JOIN and LEXIT keep every lane in one state: no lane is running and parked, or parked twice, and no two
pending joins have one address. -/
def Obligations.LanesStayApart : Prop :=
  let Apart := fun (c : Control) => (∀ j ∈ c.joins, c.em &&& j.mask = 0)
    ∧ c.joins.Pairwise (fun a b => a.mask &&& b.mask = 0 ∧ a.addr ≠ b.addr) ∧ c.joins.length ≤ 16
  ∀ (s t : State), s.cur.role = .warp → s.cur.c.replay = none → Apart s.cur.c → tsInh s.cur.t.tstat = false →
    (∀ f, exec (.park f) s = .next t → Apart t.cur.c) ∧ (∀ f, exec (.join f) s = .next t → Apart t.cur.c)
    ∧ (∀ f, exec (.lexit f) s = .next t →
        (s.cur.c.em &&& ~~~ (laneMask s.cur f.g &&& s.cur.r.getP f.pa.toNat) ≠ 0 ∨ s.cur.c.joins ≠ []) → Apart t.cur.c)

/-! ### Classes 0x2 to 0x5 (R87, R92, R93, R105 to R134) -/

open Sys2Proof Sys2Proof.Machine in
/-- R87, R105, R106, R108, R110: the integer forms, element by element at the width of TY, with no flag: tag (TY, 0), and
every lane outside the mask keeps its bits. -/
def Obligations.VectorIntegers : Prop :=
  ∀ (s : State) (f : V3),
    let P := V3.P f
    let w := 32 / P
    let m := laneMask s.cur f.g
    let sg := tySigned f.ty
    let Ends := fun (i : Instr) (op : BitVec w → BitVec w → BitVec w → BitVec w) => Issues i f.g s →
      ∃ t, exec i s = .next t ∧ WroteV f.vd.toNat (mkTag f.ty.toNat 0) m 0 s t
        ∧ ∀ l e, l < 32 → e < P → m.getLsbD l = true →
          elemBits P ((t.cur.r.getV f.vd.toNat).lane l) e
            = op (elemBits P (V3.laneA f s.cur l) e) (elemBits P (V3.laneB f s.cur l) e) (elemBits P (V3.laneC f s.cur l) e)
    let clamp := fun (x : Int) => if sg then BitVec.ofInt w (max (-2 ^ (w - 1)) (min (2 ^ (w - 1) - 1) x))
      else BitVec.ofInt w (max 0 (min (2 ^ w - 1) x))
    let val := fun (x : BitVec w) => if sg then x.toInt else (x.toNat : Int)
    Ends (.vadd f) (fun a b _ => a + b) ∧ Ends (.vsub f) (fun a b _ => a - b) ∧ Ends (.vmul f) (fun a b _ => a * b)
    ∧ Ends (.vmad f) (fun a b c => a * b + c)
    ∧ Ends (.vmulh f) (fun a b _ => (a.signExtend (2 * w) * b.signExtend (2 * w)).extractLsb' w w)
    ∧ Ends (.vmulhn f) (fun a b _ => (a.setWidth (2 * w) * b.setWidth (2 * w)).extractLsb' w w)
    ∧ Ends (.vmin f) (fun a b _ => if a.slt b then a else b) ∧ Ends (.vmax f) (fun a b _ => if b.slt a then a else b)
    ∧ Ends (.vminn f) (fun a b _ => if a.ult b then a else b) ∧ Ends (.vmaxn f) (fun a b _ => if b.ult a then a else b)
    ∧ Ends (.vabs f) (fun a _ _ => if a.msb then -a else a)
    ∧ Ends (.vadds f) (fun a b _ => clamp (val a + val b)) ∧ Ends (.vsubs f) (fun a b _ => clamp (val a - val b))
    ∧ Ends (.vshl f) (fun a n _ => if n.toNat ≥ w then 0 else a <<< n.toNat)
    ∧ Ends (.vshr f) (fun a n _ => if n.toNat ≥ w then 0 else a >>> n.toNat)
    ∧ Ends (.vsra f) (fun a n _ => a.sshiftRight (min n.toNat w))
    ∧ Ends (.vpopc f) (fun a _ _ => BitVec.ofNat w ((List.range w).countP (fun j => a.getLsbD j)))
    ∧ Ends (.vclz f) (fun a _ _ => BitVec.ofNat w (((List.range w).find? (fun j => a.getMsbD j)).getD w))

open Sys2Proof Sys2Proof.Machine in
/-- R105, R106, R108, R110 to R112: the forms that act on whole lanes, with the tag that each writes. -/
def Obligations.VectorLanes : Prop :=
  ∀ s : State,
    let r := s.cur.r
    (∀ f : V3,
      let m := laneMask s.cur f.g
      let a := V3.laneA f s.cur
      let b := V3.laneB f s.cur
      let raw := if f.ty = 0 then (r.getV f.va.toNat).tag
        else if f.ty = 6 ∨ f.ty = 7 then f.ty ++ (r.getV f.va.toNat).tag.setWidth 8 else f.ty ++ 0#8
      let d := f.vd.toNat
      (Issues (.vmov f) f.g s → EndsV (.vmov f) d (if f.bs then mkTag f.ty.toNat 0 else raw) m (if f.bs then b else a) s)
      ∧ (Issues (.vbcast f) f.g s →
          EndsV (.vbcast f) d raw m (fun _ => a (if f.bs then (r.getS (lowS f.vb)).toNat % 32 else f.sub.toNat % 32)) s)
      ∧ (Issues (.vlane f) f.g s →
          EndsV (.vlane f) d (mkTag f.ty.toNat 0) m
            (fun l => BitVec.ofNat 32 l + if f.bs then (r.getS (lowS f.vb)).setWidth 32 else 0) s)
      ∧ (Issues (.vand f) f.g s → EndsV (.vand f) d raw m (fun l => a l &&& b l) s)
      ∧ (Issues (.vor f) f.g s → EndsV (.vor f) d raw m (fun l => a l ||| b l) s)
      ∧ (Issues (.vxor f) f.g s → EndsV (.vxor f) d raw m (fun l => a l ^^^ b l) s)
      ∧ (Issues (.vandn f) f.g s → EndsV (.vandn f) d raw m (fun l => a l &&& ~~~ b l) s)
      ∧ (Issues (.vsel f) f.g s →
          EndsV (.vsel f) d raw m (fun l => if (r.getP f.pp.toNat).getLsbD l then a l else b l) s)
      ∧ (Issues (.vdot4 f) f.g s → EndsV (.vdot4 f) d (if f.ty = 8 then 0x100 else 0x200) m (fun l =>
          let x := fun (y : Word) (e : Nat) => if f.ty = 8 then (elemBits 4 y e).signExtend 32 else (elemBits 4 y e).setWidth 32
          V3.laneC f s.cur l + x (a l) 0 * x (b l) 0 + x (a l) 1 * x (b l) 1 + x (a l) 2 * x (b l) 2
            + x (a l) 3 * x (b l) 3) s)
      ∧ (Issues (.vpermb f) f.g s → ∃ v, EndsV (.vpermb f) d raw m v s ∧ ∀ l j, l < 32 → j < 4 → m.getLsbD l = true →
          let c := (elemBits 4 (V3.laneC f s.cur l) j).toNat
          elemBits 4 (v l) j = if c ≥ 128 then 0 else elemBits 4 (if c / 4 % 2 = 1 then b l else a l) (c % 4))
      ∧ (Issues (.vtagrRead f) f.g s →
          EndsV (.vtagrRead f) d 0x200 m (fun _ => (r.getV f.va.toNat).tag.setWidth 32) s)
      ∧ (Issues (.vtagrSet f) f.g s →
          let x := (r.getS (lowS f.vb)).setWidth 12
          (x.toNat / 256 = 15 → EndsV (.vtagrSet f) d 0xF00 m a s)
          ∧ (x.toNat / 256 = 6 ∨ x.toNat / 256 = 7 → EndsV (.vtagrSet f) d x m a s)
          ∧ (x.toNat / 256 < 6 ∨ (8 ≤ x.toNat / 256 ∧ x.toNat / 256 ≤ 10) →
              EndsV (.vtagrSet f) d (x &&& 0xF00) m a s)
          ∧ (11 ≤ x.toNat / 256 ∧ x.toNat / 256 ≤ 14 →
              exec (.vtagrSet f) s = .next (s.takeTrap { cls := 1, detail := x.setWidth 64 } 2 0x21))))
    ∧ (∀ f : V2I,
      let m := laneMask s.cur f.g
      let a := fun l => (r.getV f.va.toNat).lane l
      let d := f.vd.toNat
      let pos := f.imm.toNat % 32
      let len := f.imm.toNat / 32 % 64
      (Issues (.vmovi f) f.g s →
        EndsV (.vmovi f) d (if f.ty = 6 ∨ f.ty = 7 then f.ty ++ f.sub else f.ty ++ 0#8) m (fun _ => f.imm) s)
      ∧ (Issues (.vtag f) f.g s → EndsV (.vtag f) d (let x := f.imm.setWidth 12
          if x.toNat / 256 = 15 then 0xF00 else if x.toNat / 256 = 6 ∨ x.toNat / 256 = 7 then x else x &&& 0xF00) m a s)
      ∧ (Issues (.vbfx f) f.g s → ∃ v, EndsV (.vbfx f) d (mkTag f.ty.toNat 0) m v s ∧
          ∀ l j, l < 32 → j < 32 → m.getLsbD l = true → (v l).getLsbD j =
            if len = 0 then false else if j < len then (a l).getLsbD (pos + j)
              else f.ty == 1 && (a l).getLsbD (pos + (len - 1)))
      ∧ (Issues (.vbfi f) f.g s → ∃ v, EndsV (.vbfi f) d (mkTag f.ty.toNat 0) m v s ∧
          ∀ l j, l < 32 → j < 32 → m.getLsbD l = true → (v l).getLsbD j =
            if pos ≤ j ∧ j < pos + len then (a l).getLsbD (j - pos) else ((r.getV d).lane l).getLsbD j))

open Sys2Proof Sys2Proof.Machine in
/-- R107, R109: VCMP writes all of its predicate: a lane's bit where the condition holds of every element, or of some under
`any`, and 0 outside the mask. R73, R75, R109, R124: FCMP orders its elements by value, a NaN satisfying only ne and un; LCMP
of two registers of one scale orders codes as sign and magnitude, a NaR satisfying only ne and un. -/
def Obligations.Compares : Prop :=
  (∀ (s : State) (f : V3), Issues (.vcmp f) f.g s →
      let P := V3.P f
      let m := laneMask s.cur f.g
      let sg := tySigned f.ty
      let holds := fun l e =>
        let a := elemBits P (V3.laneA f s.cur l) e
        let b := elemBits P (V3.laneB f s.cur l) e
        let lt := if sg then a.slt b else a.ult b
        let gt := if sg then b.slt a else b.ult a
        match f.sub.toNat % 8 with
        | 0 => a == b
        | 1 => a != b
        | 2 => lt
        | 3 => !gt
        | 4 => gt
        | _ => !lt
      ∃ v, EndsP (.vcmp f) f.pp.toNat v s ∧ ∀ l, l < 32 →
        v.getLsbD l = (m.getLsbD l && if f.sub.toNat / 8 % 2 = 1 then (List.range P).any (holds l)
          else (List.range P).all (holds l)))
  ∧ (∀ (s : State) (f : V3),
      let P := V3.P f
      let w := 32 / P
      let m := laneMask s.cur f.g
      let cond := fun (un : Bool) (a b : ℚ) => match f.sub.toNat % 8 with
        | 0 => !un && decide (a = b)
        | 1 => un || decide (a ≠ b)
        | 2 => !un && decide (a < b)
        | 3 => !un && decide (a ≤ b)
        | 4 => !un && decide (b < a)
        | 5 => !un && decide (b ≤ a)
        | 6 => un
        | _ => !un
      let A := fun l e => (elemBits P (V3.laneA f s.cur l) e).toNat
      let B := fun l e => (elemBits P (V3.laneB f s.cur l) e).toNat
      let Ends := fun (i : Instr) (holds : Nat → Nat → Bool) => Issues i f.g s →
        ∃ v, EndsP i f.pp.toNat v s ∧ ∀ l, l < 32 → v.getLsbD l = (m.getLsbD l
          && if f.sub.toNat / 8 % 2 = 1 then (List.range P).any (holds l) else (List.range P).all (holds l))
      (let F := fmtOf f.ty.toNat
       let nan := fun c => decide ((2 ^ F.eb - 1) * 2 ^ F.fb < c % 2 ^ (F.w - 1))
       let val := fun c => if F.orderKey c < 0 then ((F.orderKey c + 1 : Int) : ℚ) else ((F.orderKey c : Int) : ℚ)
       Ends (.fcmp f) (fun l e => cond (nan (A l e) || nan (B l e)) (val (A l e)) (val (B l e))))
      ∧ (let nar := fun c => c == 2 ^ (w - 1)
         let val := fun c => if c / 2 ^ (w - 1) % 2 = 1 then -((c % 2 ^ (w - 1) : Nat) : ℚ) else ((c % 2 ^ (w - 1) : Nat) : ℚ)
         (f.bs = false ∧ tagScale (s.cur.r.getV f.va.toNat).tag = tagScale (s.cur.r.getV f.vb.toNat).tag) →
         Ends (.lcmp f) (fun l e => cond (nar (A l e) || nar (B l e)) (val (A l e)) (val (B l e)))))

open Sys2Proof Sys2Proof.Machine in
/-- R92, R93, R107: every instruction of classes 0x2 to 0x5 whose result is a vector or a predicate, of which no enabled flag
is raised, ends with its result written, its flags ORed into FLG, and no other register, no byte of memory and no other state
changed. R93: a result whose flag is enabled is not written: the flags are ORed into FLG and class 6 is entered at the
instruction. -/
def Obligations.VectorResults : Prop :=
  (∀ (i : Instr) (g : Guard) (k : Hart → VRes) (s : State), 
      (vecFn i = some (g, k) ∨ vecFn5 i = some (g, k)) → Issues i g s → (k s.cur).trap = none →
      flgTraps s.cur.y.flg (k s.cur).flags = false →
      ∃ t, exec i s = .next t ∧ t.cur.r = (k s.cur).write s.cur.r ∧ t.cur.y.flg = s.cur.y.flg ||| (k s.cur).flags.setWidth 64
        ∧ RegsKept [] (uses i).vd (uses i).pw [] s.cur.r t.cur.r
        ∧ (∀ n l, (laneMask s.cur g).getLsbD l = false → (t.cur.r.getV n).lane l = (s.cur.r.getV n).lane l)
        ∧ Stepped s t ∧ OthersKept s t ∧ HartKeptButFlags s.cur t.cur)
  ∧ (∀ (i : Instr) (g : Guard) (k : Hart → VRes) (w : BitVec 96) (s : State),
      (vecFn i = some (g, k) ∨ vecFn5 i = some (g, k)) → encode i = some w → Issues i g s → (k s.cur).trap = none →
      ((s.cur.y.flg.extractLsb' 8 8) &&& (k s.cur).flags) ≠ 0 → s.cur.role = .warp → tsInh s.cur.t.tstat = false →
      (s.group s.cur.pl.group).halt = none → s.departing = false →
      ∃ t, exec i s = .next t ∧ t.cur.r = s.cur.r ∧ t.cur.y.flg = s.cur.y.flg ||| (k s.cur).flags.setWidth 64
        ∧ getBits t.cur.t.tstat 0 4 = 6 ∧ t.cur.t.tpc = s.cur.c.pc
        ∧ t.cur.t.side.detail = (k s.cur).flags.setWidth 64 ∧ t.mem = s.mem)

open Sys2Proof Sys2Proof.Machine in
/-- R126, R130, R131: shuffles, and the moves between lanes, predicates and scalars. -/
def Obligations.LaneMoves : Prop :=
  ∀ (s : State) (f : V3),
    let r := s.cur.r
    let m := laneMask s.cur f.g
    let a := V3.laneA f s.cur
    let sb := r.getS (lowS f.vb)
    let raw := if f.ty = 0 then (r.getV f.va.toNat).tag
      else if f.ty = 6 ∨ f.ty = 7 then f.ty ++ (r.getV f.va.toNat).tag.setWidth 8 else f.ty ++ 0#8
    let n := if f.bs then sb.toNat % 32 else f.sub.toNat / 4 % 32
    let src := fun l => match f.sub.toNat % 4 with
      | 0 => if f.bs then n else ((r.getV f.vb.toNat).lane l).toNat % 32
      | 1 => if n ≤ l then l - n else l
      | 2 => if l + n ≤ 31 then l + n else l
      | _ => l ^^^ n
    let pa := r.getP (f.va.toNat % 16)
    let pb := r.getP (f.vb.toNat % 16)
    let pp := r.getP f.pp.toNat
    (Issues (.shfl f) f.g s → EndsV (.shfl f) f.vd.toNat raw m (fun l => a (src l)) s)
    ∧ (Issues (.vrdl f) f.g s →
        let x := a (if f.bs then sb.toNat % 32 else f.sub.toNat % 32)
        EndsS (.vrdl f) (lowS f.vd) (if f.ty = 1 then x.signExtend 64 else x.setWidth 64) s)
    ∧ (Issues (.vwrl f) f.g s →
        let q := if f.sub.toNat / 32 % 2 = 1 then (r.getS (lowS f.va)).toNat % 32 else f.sub.toNat % 32
        (m.getLsbD q = true → EndsV (.vwrl f) f.vd.toNat
          (if f.ty = 0 then (r.getV f.vd.toNat).tag else mkTag f.ty.toNat 0) (1#32 <<< q) (fun _ => sb.setWidth 32) s)
        ∧ (m.getLsbD q = false → ∃ t, exec (.vwrl f) s = .next t ∧ t.cur.r = r ∧ Stepped s t ∧ OthersKept s t))
    ∧ (Issues (.pcount f) f.g s → f.sub.toNat % 2 = 0 →
        EndsS (.pcount f) (lowS f.vd) (BitVec.ofNat 64 ((List.range 32).countP (fun l => (pp &&& m).getLsbD l))) s)
    ∧ (Issues (.pcount f) f.g s → f.sub.toNat % 2 = 1 →
        EndsS (.pcount f) (lowS f.vd)
          (BitVec.ofNat 64 (((List.range 32).find? (fun l => (pp &&& m).getLsbD l)).getD 32)) s)
    ∧ (Issues (.pmov f) f.g s → EndsP (.pmov f) f.pp.toNat (match f.sub.toNat % 8 with
        | 0 => pa
        | 1 => pa &&& pb
        | 2 => pa ||| pb
        | 3 => pa ^^^ pb
        | 4 => pa &&& ~~~ pb
        | 5 => ~~~ pa
        | _ => m) s)
    ∧ (Issues (.pfroms f) f.g s → EndsP (.pfroms f) f.pp.toNat (sb.setWidth 32) s)
    ∧ (Issues (.ptos f) f.g s → EndsS (.ptos f) (lowS f.vd) (pp.setWidth 64) s)

open Sys2Proof Sys2Proof.Machine in
/-- R107, R127, R132, R134: votes, the dropout mask, and the groups of equal lanes. -/
def Obligations.LaneMasks : Prop :=
  ∀ (s : State) (f : V3),
    let m := laneMask s.cur f.g
    let a := V3.laneA f s.cur
    let x := s.cur.r.getP (f.va.toNat % 16) &&& m
    let sb := s.cur.r.getS (lowS f.vb)
    (Issues (.vote f) f.g s → EndsP (.vote f) f.pp.toNat (match f.sub.toNat % 4 with
      | 0 => if x = m then m else 0
      | 1 => if x ≠ 0 then m else 0
      | 2 => x
      | _ => if x = 0 ∨ x = m then m else 0) s)
    ∧ (Issues (.dmask f) f.g s → ∃ v, EndsP (.dmask f) f.pp.toNat v s ∧ ∀ l, l < 32 →
        v.getLsbD l = (m.getLsbD l
          && decide ((mix32 (a l ^^^ sb.setWidth 32)).toNat / 2 ^ 16 < sb.toNat / 2 ^ 32 % 2 ^ 16)))
    ∧ (Issues (.vmatch f) f.g s → ∃ t, exec (.vmatch f) s = .next t
        ∧ (∀ l q, l < 32 → q < 32 → m.getLsbD l = true →
            ((t.cur.r.getV f.vd.toNat).lane l).getLsbD q = (m.getLsbD q && a q == a l))
        ∧ (∀ l, l < 32 → m.getLsbD l = false → (t.cur.r.getV f.vd.toNat).lane l = (s.cur.r.getV f.vd.toNat).lane l)
        ∧ (t.cur.r.getV f.vd.toNat).tag = 0x200
        ∧ (f.pp ≠ 0 → ∀ l, l < 32 → (t.cur.r.getP f.pp.toNat).getLsbD l
            = (m.getLsbD l && (List.range l).all (fun q => !(m.getLsbD q && a q == a l))))
        ∧ RegsKept [] [f.vd.toNat] [f.pp.toNat] [] s.cur.r t.cur.r ∧ Stepped s t ∧ OthersKept s t)

open Sys2Proof Sys2Proof.Machine in
/-- R128, R129: integer reductions and scans over the lanes of the mask. The sum does not depend on the tree. -/
def Obligations.IntegerReductions : Prop :=
  ∀ (s : State) (f : V3), (f.ty = 1 ∨ f.ty = 2) →
    let m := laneMask s.cur f.g
    let a := V3.laneA f s.cur
    let ls := (List.range 32).filter (fun l => m.getLsbD l)
    let val := fun (x : Word) => if f.ty = 1 then x.toInt else (x.toNat : Int)
    let tag := mkTag f.ty.toNat 0
    (Issues (.vred f) f.g s → ∃ v : Word, EndsV (.vred f) f.vd.toNat tag m (fun _ => v) s
      ∧ match f.sub.toNat % 8 with
        | 0 => v = (ls.map a).foldl (· + ·) 0
        | 1 => (∃ l ∈ ls, v = a l) ∧ ∀ l ∈ ls, val v ≤ val (a l)
        | 2 => (∃ l ∈ ls, v = a l) ∧ ∀ l ∈ ls, val (a l) ≤ val v
        | 3 => v = (ls.map a).foldl (· &&& ·) (BitVec.allOnes 32)
        | 4 => v = (ls.map a).foldl (· ||| ·) 0
        | _ => v = (ls.map a).foldl (· ^^^ ·) 0)
    ∧ (Issues (.vscan f) f.g s → f.sub.toNat % 8 = 0 → EndsV (.vscan f) f.vd.toNat tag m (fun l =>
        ((ls.filter (fun q => if f.sub.toNat / 8 % 2 = 1 then decide (q < l) else decide (q ≤ l))).map a).foldl
          (· + ·) 0) s)
    ∧ (Issues (.vscan f) f.g s → f.sub.toNat % 8 = 5 → EndsV (.vscan f) f.vd.toNat tag m (fun l =>
        ((ls.filter (fun q => if f.sub.toNat / 8 % 2 = 1 then decide (q < l) else decide (q ≤ l))).map a).foldl
          (· ^^^ ·) 0) s)

open Sys2Proof Sys2Proof.Machine in
/-- R133: one compare-exchange step. A lane whose partner is outside the mask keeps its value; of a pair in the mask the two
lanes keep or exchange their values, so that afterwards the keys stand in the order the pair sorts by, and equal keys stay.
-/
def Obligations.CompareExchange : Prop :=
  ∀ (s : State) (f : V3), ((5 ≤ f.sub.toNat % 8 ∨ f.sub.toNat / 8 % 8 = 7) → illegal (.vcmx f) s = some 2) ∧ (Issues (.vcmx f) f.g s →
    let m := laneMask s.cur f.g
    let a := V3.laneA f s.cur
    let pay := f.sub.toNat / 64 % 2 = 1
    let src := fun l => if pay then (s.cur.r.getV f.vb.toNat).lane l else a l
    let key := fun l => if f.ty = 1 then (a l).toInt else if f.ty = 2 then ((a l).toNat : Int) else totalKey (a l).toNat
    let b := 2 ^ (f.sub.toNat % 8)
    let k := f.sub.toNat / 8 % 8
    let asc := fun lo => k = 5 ∨ (k ≤ 4 ∧ lo / 2 ^ k % 2 = 0)
    ∃ t, exec (.vcmx f) s = .next t
      ∧ WroteV f.vd.toNat (if pay then (s.cur.r.getV f.vb.toNat).tag else mkTag f.ty.toNat 0) m 0 s t
      ∧ (∀ l, l < 32 → m.getLsbD l = true → m.getLsbD (l ^^^ b) = false → (t.cur.r.getV f.vd.toNat).lane l = src l)
      ∧ (∀ lo, lo < 32 → lo / b % 2 = 0 → m.getLsbD lo = true → m.getLsbD (lo + b) = true →
          let x := (t.cur.r.getV f.vd.toNat).lane lo
          let y := (t.cur.r.getV f.vd.toNat).lane (lo + b)
          if (asc lo ∧ key (lo + b) < key lo) ∨ (¬ asc lo ∧ key lo < key (lo + b))
          then x = src (lo + b) ∧ y = src lo else x = src lo ∧ y = src (lo + b)))

open Sys2Proof Sys2Proof.Machine in
/-- R72, R73, R109, R113 to R116: what the float forms give for NaN, signed zeros, infinities and invalid operands, element
by element, when no flag traps; the bit that FCLASS sets; and the results that R115 lists as exact. -/
def Obligations.FloatSpecialValues : Prop :=
  ∀ (s : State) (f : V3), getBits s.cur.y.flg 8 8 = 0 →
    let P := V3.P f
    let F := fmtOf f.ty.toNat
    let m := laneMask s.cur f.g
    let Ends := fun (i : Instr) (rel : Nat → Nat → Nat → Nat → Dword → Prop) => Issues i f.g s →
      ∃ t fl, exec i s = .next t ∧ WroteV f.vd.toNat (mkTag f.ty.toNat 0) m fl s t
        ∧ ∀ l e, l < 32 → e < P → m.getLsbD l = true →
          rel (elemBits P (V3.laneA f s.cur l) e).toNat (elemBits P (V3.laneB f s.cur l) e).toNat
            (elemBits P (V3.laneC f s.cur l) e).toNat (elemBits P ((t.cur.r.getV f.vd.toNat).lane l) e).toNat t.cur.y.flg
    let twoNaN := fun (a b _ r : Nat) (_ : Dword) => F.isNaN a ∨ F.isNaN b → r = F.canonicalNaN
    let threeNaN := fun (a b c r : Nat) (_ : Dword) => F.isNaN a ∨ F.isNaN b ∨ F.isNaN c → r = F.canonicalNaN
    let zero := fun c => F.magnitude c = 0 ∧ F.isFinite c
    let infinite := fun c => ¬ F.isFinite c ∧ ¬ F.isNaN c
    Ends (.fadd f) twoNaN ∧ Ends (.fsub f) twoNaN ∧ Ends (.fmul f) twoNaN
    ∧ Ends (.ffma f) threeNaN ∧ Ends (.ffms f) threeNaN ∧ Ends (.fnma f) threeNaN
    ∧ Ends (.fmul f) (fun a b _ r fl => zero a → infinite b → r = F.canonicalNaN ∧ fl.getLsbD 3 = true)
    ∧ Ends (.fadd f) (fun a b _ r fl => infinite a → infinite b → (F.negative a ↔ ¬ F.negative b) →
        r = F.canonicalNaN ∧ fl.getLsbD 3 = true)
    ∧ Ends (.fmin f) (fun a b _ r _ => (F.isNaN a → F.isNaN b → r = F.canonicalNaN) ∧ (F.isNaN a → ¬ F.isNaN b → r = b)
        ∧ (¬ F.isNaN a → F.isNaN b → r = a)
        ∧ (¬ F.isNaN a → ¬ F.isNaN b → r = if F.orderKey a ≤ F.orderKey b then a else b))
    ∧ Ends (.fmax f) (fun a b _ r _ => (F.isNaN a → F.isNaN b → r = F.canonicalNaN) ∧ (F.isNaN a → ¬ F.isNaN b → r = b)
        ∧ (¬ F.isNaN a → F.isNaN b → r = a)
        ∧ (¬ F.isNaN a → ¬ F.isNaN b → r = if F.orderKey a ≤ F.orderKey b then b else a))
    ∧ Ends (.fabs f) (fun a _ _ r _ => r = if F.canonicalNaN - 2 ^ (F.fb - 1) < a % 2 ^ (F.w - 1) then F.canonicalNaN
        else a % 2 ^ (F.w - 1))
    ∧ Ends (.fneg f) (fun a _ _ r _ => r = if F.canonicalNaN - 2 ^ (F.fb - 1) < a % 2 ^ (F.w - 1) then F.canonicalNaN
        else a ^^^ 2 ^ (F.w - 1))
    ∧ Ends (.frnd f) (fun a _ _ r _ => (F.isNaN a → r = F.canonicalNaN) ∧ (zero a ∨ infinite a → r = a))
    ∧ Ends (.fdiv f) (fun a b _ r fl => (F.isNaN a ∨ F.isNaN b → r = F.canonicalNaN)
        ∧ (zero a → zero b → r = F.canonicalNaN ∧ fl.getLsbD 3 = true)
        ∧ (infinite a → infinite b → r = F.canonicalNaN ∧ fl.getLsbD 3 = true)
        ∧ (F.isFinite a → infinite b → zero r ∧ (F.negative r ↔ (F.negative a ↔ ¬ F.negative b)))
        ∧ (infinite a → F.isFinite b → infinite r ∧ (F.negative r ↔ (F.negative a ↔ ¬ F.negative b)))
        ∧ (F.isFinite a → ¬ zero a → zero b → infinite r ∧ fl.getLsbD 4 = true ∧ (F.negative r ↔ (F.negative a ↔ ¬ F.negative b))))
    ∧ Ends (.fsqrt f) (fun a _ _ r fl => (F.isNaN a → r = F.canonicalNaN) ∧ (zero a → r = a)
        ∧ (infinite a → ¬ F.negative a → r = a)
        ∧ (F.negative a → ¬ F.isNaN a → ¬ zero a → r = F.canonicalNaN ∧ fl.getLsbD 3 = true))
    ∧ (let invalid := fun a b (_ : Nat) r (fl : Dword) => (zero a ∧ infinite b) ∨ (infinite a ∧ zero b) →
          r = F.canonicalNaN ∧ fl.getLsbD 3 = true
       Ends (.ffma f) invalid ∧ Ends (.ffms f) invalid ∧ Ends (.fnma f) invalid)
    ∧ (Issues (.fclass f) f.g s → ∃ t, exec (.fclass f) s = .next t ∧ WroteV f.vd.toNat (mkTag 2 0) m 0 s t
        ∧ ∀ l, l < 32 → m.getLsbD l = true →
          let a := (V3.laneA f s.cur l).toNat
          let r := ((t.cur.r.getV f.vd.toNat).lane l).toNat
          let normal := F32.isFinite a ∧ 2 ^ 23 ≤ a % 2 ^ 31
          let small := 0 < a % 2 ^ 31 ∧ a % 2 ^ 31 < 2 ^ 23
          (F32.isNaN a → r = 2 ^ 8) ∧ (a = 0x7F800000 → r = 2 ^ 7) ∧ (a = 0xFF800000 → r = 2 ^ 0)
          ∧ (normal → r = if a < 2 ^ 31 then 2 ^ 6 else 2 ^ 1) ∧ (small → r = if a < 2 ^ 31 then 2 ^ 5 else 2 ^ 2)
          ∧ (a % 2 ^ 31 = 0 → r = if a < 2 ^ 31 then 2 ^ 4 else 2 ^ 3))
    ∧ (let same := fun a r => F.negative r ↔ F.negative a
       let plus := fun r => ¬ F.negative r
       let invalid := fun r (fl : Dword) => r = F.canonicalNaN ∧ fl.getLsbD 3 = true
       let pole := fun r (fl : Dword) => infinite r ∧ fl.getLsbD 4 = true
       let codeOf := fun (v : ℚ) => ∃ c, c < 2 ^ F.w ∧ F.isFinite c ∧ F.value c = v
       let exactly := fun r (v : ℚ) => F.isFinite r ∧ F.value r = v
       let quiet := fun a r => F.isNaN a → r = F.canonicalNaN
       Ends (.frcp f) (fun a _ _ r fl => quiet a r ∧ (zero a → pole r fl ∧ same a r) ∧ (infinite a → zero r ∧ same a r)
         ∧ (∀ k : ℤ, F.isFinite a → |F.value a| = 2 ^ k → codeOf (1 / F.value a) → exactly r (1 / F.value a)))
       ∧ Ends (.frsq f) (fun a _ _ r fl => quiet a r ∧ (zero a → pole r fl ∧ same a r)
         ∧ (F.negative a → ¬ F.isNaN a → ¬ zero a → invalid r fl) ∧ (infinite a → plus a → zero r ∧ plus r)
         ∧ (∀ k : ℤ, F.isFinite a → F.value a = 2 ^ (2 * k) → exactly r (2 ^ (-k))))
       ∧ Ends (.fexp2 f) (fun a _ _ r fl => quiet a r ∧ (infinite a → F.negative a → zero r ∧ plus r)
         ∧ (infinite a → plus a → infinite r ∧ plus r)
         ∧ (∀ k : ℤ, F.isFinite a → F.value a = k → codeOf (2 ^ k) → exactly r (2 ^ k))
         ∧ (F.isFinite a → 2 ^ (F.eb - 1) ≤ F.value a → infinite r ∧ plus r ∧ fl.getLsbD 1 = true ∧ fl.getLsbD 0 = true))
       ∧ Ends (.flog2 f) (fun a _ _ r fl => quiet a r ∧ (zero a → pole r fl ∧ F.negative r)
         ∧ (F.negative a → ¬ F.isNaN a → ¬ zero a → invalid r fl) ∧ (infinite a → plus a → infinite r ∧ plus r)
         ∧ (∀ k : ℤ, F.isFinite a → F.value a = 2 ^ k → exactly r k))
       ∧ Ends (.fsin f) (fun a _ _ r fl => quiet a r ∧ (zero a → r = a) ∧ (infinite a → invalid r fl))
       ∧ Ends (.fcos f) (fun a _ _ r fl => quiet a r ∧ (zero a → exactly r 1) ∧ (infinite a → invalid r fl))
       ∧ Ends (.ftanh f) (fun a _ _ r _ => quiet a r ∧ (zero a → r = a) ∧ (infinite a → exactly r (if a < 2 ^ (F.w - 1) then 1 else -1)))
       ∧ Ends (.fsigm f) (fun a _ _ r _ => quiet a r ∧ (zero a → exactly r (1 / 2)) ∧ (infinite a → F.negative a → zero r ∧ plus r)
         ∧ (infinite a → plus a → exactly r 1)))

open Sys2Proof Sys2Proof.Machine in
/-- R73, R74, R113, R115, R116: sums, differences, products, fused sums, quotients, roots and FDOT2 of finite elements are rounded once
and correctly under each of the four modes where the exact value lies within the finite range, and overflow as R74 gives above it; a
result that is not exact raises IX. A special function's finite result that is not listed as exact keeps the bound of R115 around the
value that Machine.spTrue computes for it, exact for FRCP and else in fixed point with 100 fraction bits, and raises IX, and UF where it
is tiny; which code within the bound it is stays a free value (log entry 15). -/
def Obligations.FloatRoundsCorrectly : Prop :=
  ∀ (s : State) (f : V3), getBits s.cur.y.flg 8 8 = 0 →
    let P := V3.P f
    let F := fmtOf f.ty.toNat
    let m := laneMask s.cur f.g
    let A := fun (p l e : Nat) => (elemBits p (V3.laneA f s.cur l) e).toNat
    let B := fun (p l e : Nat) => (elemBits p (V3.laneB f s.cur l) e).toNat
    let C := fun (p l e : Nat) => (elemBits p (V3.laneC f s.cur l) e).toNat
    let R := fun (p : Nat) (t : State) (l e : Nat) => (elemBits p ((t.cur.r.getV f.vd.toNat).lane l) e).toNat
    let Rounded := fun (G : Fmt) (x : ℚ) (r : Nat) (flg : Dword) =>
      (|x| ≤ G.value G.maxCode → G.Rounds f.rm.toNat x r ∧ (G.value r ≠ x → flg.getLsbD 0 = true))
      ∧ ((2 : ℚ) ^ (2 ^ (G.eb - 1)) ≤ |x| →
          G.Overflows f.rm.toNat (decide (x < 0)) r ∧ flg.getLsbD 1 = true ∧ flg.getLsbD 0 = true)
    let Ends := fun (i : Instr) (third : Bool) (ok : Nat → Nat → Prop) (x : Nat → Nat → Nat → ℚ) => Issues i f.g s →
      ∃ t, exec i s = .next t
        ∧ ∀ l e, l < 32 → e < P → m.getLsbD l = true →
          let a := A P l e
          let b := B P l e
          let c := C P l e
          F.isFinite a → F.isFinite b → (third = true → F.isFinite c) → ok a b → Rounded F (x a b c) (R P t l e) t.cur.y.flg
    let any := fun (_ _ : Nat) => True
    Ends (.fadd f) false any (fun a b _ => F.value a + F.value b) ∧ Ends (.fsub f) false any (fun a b _ => F.value a - F.value b)
    ∧ Ends (.fmul f) false any (fun a b _ => F.value a * F.value b)
    ∧ Ends (.ffma f) true any (fun a b c => F.value a * F.value b + F.value c)
    ∧ Ends (.ffms f) true any (fun a b c => F.value a * F.value b - F.value c)
    ∧ Ends (.fnma f) true any (fun a b c => -(F.value a * F.value b) + F.value c)
    ∧ Ends (.fdiv f) false (fun _ b => F.value b ≠ 0) (fun a b _ => F.value a / F.value b)
    ∧ (Issues (.fsqrt f) f.g s → ∃ t, exec (.fsqrt f) s = .next t
        ∧ ∀ l e, l < 32 → e < P → m.getLsbD l = true → F.isFinite (A P l e) → 0 ≤ F.value (A P l e) →
          F.RoundsRoot f.rm.toNat (F.value (A P l e)) (R P t l e)
          ∧ (F.value (R P t l e) ^ 2 ≠ F.value (A P l e) → t.cur.y.flg.getLsbD 0 = true))
    ∧ (Issues (.fdot2 f) f.g s → ∃ t, exec (.fdot2 f) s = .next t ∧ (t.cur.r.getV f.vd.toNat).tag = mkTag 3 0
        ∧ ∀ l, l < 32 → m.getLsbD l = true →
          let c := C 1 l 0
          let r := R 1 t l 0
          let zero := fun x => F.magnitude x = 0 ∧ F.isFinite x
          let infinite := fun x => ¬ F.isFinite x ∧ ¬ F.isNaN x
          ((∀ e, e < 2 → F.isFinite (A 2 l e) ∧ F.isFinite (B 2 l e)) → F32.isFinite c →
            Rounded F32 (F32.value c + F.value (A 2 l 0) * F.value (B 2 l 0) + F.value (A 2 l 1) * F.value (B 2 l 1)) r t.cur.y.flg)
          ∧ (∀ e, e < 2 → (zero (A 2 l e) ∧ infinite (B 2 l e)) ∨ (infinite (A 2 l e) ∧ zero (B 2 l e)) →
              r = F32.canonicalNaN ∧ t.cur.y.flg.getLsbD 3 = true)
          ∧ (F32.isNaN c → r = F32.canonicalNaN))
    ∧ (let Bounded := fun (i : Instr) (fn : SpFn) (k : Nat) (absolute : Bool) (ok listed : ℚ → Prop) => Issues i f.g s →
          ∃ t, exec i s = .next t
            ∧ ∀ l e x d n q, l < 32 → e < P → m.getLsbD l = true → F.isFinite (A P l e) →
              let v := F.value (A P l e)
              v ≠ 0 → ok v → ¬ listed v → codeRat F (A P l e) = some (x, d) → spTrue fn x d = (n, q) →
              let y : ℚ := n / q
              |y| ≤ F.value F.maxCode →
                F.Near k absolute y (R P t l e) ∧ t.cur.y.flg.getLsbD 0 = true
                ∧ (|F.value (R P t l e)| < 2 ^ (F.leastExp + F.fb) → t.cur.y.flg.getLsbD 2 = true)
       let codeOf := fun (v : ℚ) => ∃ c, c < 2 ^ F.w ∧ F.isFinite c ∧ F.value c = v
       let none := fun (_ : ℚ) => False
       let all := fun (_ : ℚ) => True
       Bounded (.frcp f) .rcp 1 false all (fun v => codeOf (1 / v))
       ∧ Bounded (.frsq f) .rsq 1 false (fun v => 0 < v) (fun v => ∃ k : ℤ, v = 2 ^ (2 * k))
       ∧ Bounded (.fexp2 f) .exp2 2 false (fun v => |v| ≤ 1024) (fun v => ∃ k : ℤ, v = k ∧ codeOf (2 ^ k))
       ∧ Bounded (.flog2 f) .log2 2 false (fun v => 0 < v) (fun v => ∃ k : ℤ, v = 2 ^ k)
       ∧ Bounded (.fsin f) .sin 2 true all none ∧ Bounded (.fcos f) .cos 2 true all none
       ∧ Bounded (.ftanh f) .tanh 2 true all none ∧ Bounded (.fsigm f) .sigm 2 true all none
       ∧ (∀ x d n q, x ≠ 0 → spTrue .rcp x d = (n, q) → (n : ℚ) / q = 1 / ((x : ℚ) / d)))

open Sys2Proof Sys2Proof.Machine in
/-- R71, R77, R82, R83, R86, R117 to R123: packing and unpacking of integers; CVT and CVTI of every pair of formats, element by element
under .rne, .rtz, .rup and .rdn, with the scale and the places of R117 and R118; CVTF; the log-domain products, quotients, squares and
roots with their scale; LSCALE within and beyond the range of scales; and the block scale that LMAXS chooses. -/
def Obligations.ConversionsAndLogForms : Prop :=
  ∀ (s : State) (f : V3), getBits s.cur.y.flg 8 8 = 0 →
    let P := V3.P f
    let w := 32 / P
    let m := laneMask s.cur f.g
    let a := V3.laneA f s.cur
    let b := V3.laneB f s.cur
    let Ends := fun (i : Instr) (rel : State → Nat → Nat → BitVec w → Prop) => Issues i f.g s →
      ∃ t, exec i s = .next t ∧ RegsKept [] [f.vd.toNat] [] [] s.cur.r t.cur.r ∧ OthersKept s t
        ∧ ∀ l e, l < 32 → e < P → m.getLsbD l = true → rel t l e (elemBits P ((t.cur.r.getV f.vd.toNat).lane l) e)
    let src := fun (ps : Nat) (l e : Nat) => (elemBits ps (if e < ps then a l else b l) (e % ps)).toInt
    let ps := if f.ty = 10 then 1 else 2
    let lo : Int := if f.ty = 9 then 0 else -2 ^ (w - 1)
    let hi : Int := if f.ty = 9 then 2 ^ w - 1 else 2 ^ (w - 1) - 1
    let nar : Nat := 2 ^ (w - 1)
    let A := fun l e => (elemBits P (a l) e).toNat
    let B := fun l e => (elemBits P (b l) e).toNat
    let scaleA := tagScale (s.cur.r.getV f.va.toNat).tag
    let δ : Int := if f.bs then (s.cur.r.getS (lowS f.vb)).toInt else f.sub.toInt
    let scaleB := if f.bs then 0 else tagScale (s.cur.r.getV f.vb.toNat).tag
    let bound := fun (x : Int) => max (-128) (min 127 x)
    let L := lfmtOf f.ty.toNat
    let real := fun (x : Nat) => x % 2 ^ L.n ≠ 0
    let sign := fun (x : Nat) => x.testBit L.n
    let mu := fun (x : Nat) (sx : Int) => L.lam (x % 2 ^ L.n) + 2 ^ L.m * sx
    let scaled := fun (t : State) (sx : Int) => (t.cur.r.getV f.vd.toNat).tag = mkTag f.ty.toNat (bound sx)
    let enc := fun (t : State) (neg : Bool) (m : ℚ) (sx : Int) (r : Nat) =>
      L.Encodes neg (m - 2 ^ L.m * bound sx) f.rm.toNat r t.cur.y.flg
    let code := f.sub.toNat % 16
    let n := WellFormed.perLane code
    let h := f.sub.toNat / 16 % 4
    let dst := f.ty.toNat
    let st : Int := if isLog dst = false then 0 else if isLog code then scaleA
      else if f.bs then ((s.cur.r.getS (lowS f.vb)).setWidth 8).toInt else 0
    let place := fun (d e : Nat) => if n = P then d = e else if n < P then e = h * n + d else d = h * P + e
    let Converts := fun (i : Instr) => Issues i f.g s →
      ∃ t, exec i s = .next t ∧ (t.cur.r.getV f.vd.toNat).tag = mkTag dst st ∧ RegsKept [] [f.vd.toNat] [] [] s.cur.r t.cur.r
        ∧ OthersKept s t
        ∧ ∀ l e, l < 32 → e < P →
          let r := (elemBits P ((t.cur.r.getV f.vd.toNat).lane l) e).toNat
          let fl := t.cur.y.flg
          ((m.getLsbD l = false ∨ ∀ d, d < n → ¬ place d e) →
            elemBits P ((t.cur.r.getV f.vd.toNat).lane l) e = elemBits P ((s.cur.r.getV f.vd.toNat).lane l) e)
          ∧ (∀ d, m.getLsbD l = true → d < n → place d e →
            let x := (elemBits n (a l) d).toNat
            (∀ v, f.rm.toNat < 4 → (isLog code = false ∨ isLog dst = false) → HasValue code scaleA x v → ConvertsTo dst f.rm.toNat st v r fl)
            ∧ (isLog code = true → isLog dst = true → (x = 0 → r = 0) ∧ (x = (lfmtOf code).nar → r = L.nar)
                ∧ (code = 7 → x % 128 ≠ 0 → r.testBit 15 = x.testBit 7 ∧ lamOf L16 (r % 2 ^ 15) = 128 * lamOf L8 (x % 128))
                ∧ (code = 6 → f.rm.toNat < 4 → x % 2 ^ 15 ≠ 0 → L8.Encodes (x.testBit 15) (L16.lam (x % 2 ^ 15) / 128) f.rm.toNat r fl))
            ∧ (isLog code = true → x = (lfmtOf code).nar → isLog dst = false →
                if isInt dst then r = 0 ∧ fl.getLsbD 3 = true else r = (fmtOf dst).canonicalNaN)
            ∧ (isLog code = false → isInt code = false → (fmtOf code).isNaN x →
                if isLog dst then r = L.nar ∧ fl.getLsbD 7 = true else if isInt dst then r = 0 ∧ fl.getLsbD 3 = true
                else r = (fmtOf dst).canonicalNaN)
            ∧ (isLog code = false → isInt code = false → ¬ (fmtOf code).isNaN x → ¬ (fmtOf code).isFinite x →
                let neg := decide (2 ^ (32 / n - 1) ≤ x)
                if isLog dst then r = L.code neg L.top ∧ fl.getLsbD 5 = true ∧ fl.getLsbD 0 = true
                else if isInt dst then fl.getLsbD 3 = true ∧ r = (if codeSigned dst then (if neg then 2 ^ (w - 1) else 2 ^ (w - 1) - 1)
                  else if neg then 0 else 2 ^ w - 1)
                else r = (if neg then 2 ^ (w - 1) else 0) + (fmtOf dst).maxCode + 1))
    Converts (.cvt f) ∧ Converts (.cvti f)
    ∧ Ends (.lmul f) (fun t l e r => scaled t (scaleA + scaleB) ∧ (real (A l e) → real (B l e) →
        enc t (sign (A l e) != sign (B l e)) (mu (A l e) scaleA + mu (B l e) scaleB) (scaleA + scaleB) r.toNat))
    ∧ Ends (.ldiv f) (fun t l e r => scaled t (scaleA - scaleB) ∧ (real (A l e) → real (B l e) →
        enc t (sign (A l e) != sign (B l e)) (mu (A l e) scaleA - mu (B l e) scaleB) (scaleA - scaleB) r.toNat))
    ∧ Ends (.lsqr f) (fun t l e r => scaled t (2 * scaleA) ∧ (real (A l e) →
        enc t false (2 * mu (A l e) scaleA) (2 * scaleA) r.toNat))
    ∧ Ends (.lsqrt f) (fun t l e r => scaled t (scaleA / 2) ∧ (real (A l e) → sign (A l e) = false →
        enc t false (mu (A l e) scaleA / 2) (scaleA / 2) r.toNat))
    ∧ (scaleA + δ < -128 ∨ 127 < scaleA + δ → Ends (.lscale f) (fun t l e r => scaled t (scaleA + δ)
        ∧ (A l e = nar → r.toNat = nar) ∧ (A l e = 0 → r = 0)
        ∧ (real (A l e) → enc t (sign (A l e)) (mu (A l e) scaleA + 2 ^ L.m * δ) (scaleA + δ) r.toNat)))
    ∧ (let x := fun l d => (elemBits n (a l) d).toNat
       let G := fmtOf code
       let counts := fun l d => l < 32 ∧ d < n ∧ m.getLsbD l = true ∧ G.isFinite (x l d) ∧ G.value (x l d) ≠ 0
       let Gives := fun (v : Int) => EndsV (.lmaxs f) f.vd.toNat (mkTag 1 0) m (fun _ => BitVec.ofInt 32 v) s
       Issues (.lmaxs f) f.g s → ((∀ l d, ¬ counts l d) → Gives 0)
         ∧ (∀ l d, counts l d → (∀ j e, counts j e → |G.value (x j e)| ≤ |G.value (x l d)|) →
            Gives (bound (Int.log 2 |G.value (x l d)| + 1 - if f.ty = 7 then 12 else 56))))
    ∧ Ends (.pack f) (fun t l e r => (f.sub.toNat % 2 = 0 → r = BitVec.ofInt w (src ps l e))
        ∧ (f.sub.toNat % 2 = 1 → r = BitVec.ofInt w (max lo (min hi (src ps l e)))
            ∧ (src ps l e < lo ∨ hi < src ps l e → t.cur.y.flg.getLsbD 3 = true)))
    ∧ Ends (.unpack f) (fun _ l e r => (f.ty = 1 → r = BitVec.ofInt w (elemBits 2 (a l) (f.sub.toNat % 2)).toInt)
        ∧ (f.ty = 10 → r = let x := elemBits 4 (a l) (2 * (f.sub.toNat % 2) + e)
            if f.sub.toNat < 2 then BitVec.ofInt w x.toInt else BitVec.ofNat w x.toNat))
    ∧ Ends (.cvtf f) (fun _ l _ r => f.sub.toNat % 32 = 0 →
        (f.ty = 3 → f.sub.toNat < 64 → (a l).toInt.natAbs ≤ 2 ^ 24 → F32.isFinite r.toNat ∧ F32.value r.toNat = (a l).toInt)
        ∧ (f.ty = 1 → F32.isFinite (a l).toNat → ∀ n : Int, F32.value (a l).toNat = n → -2 ^ 31 ≤ n → n < 2 ^ 31 →
            r.toInt = n))
    ∧ Ends (.cvti f) (fun _ l _ r => f.sub.toNat % 16 = 1 → f.ty = 3 → (a l).toInt.natAbs ≤ 2 ^ 24 →
        F32.isFinite r.toNat ∧ F32.value r.toNat = (a l).toInt)
    ∧ (-128 ≤ scaleA + δ → scaleA + δ ≤ 127 → Issues (.lscale f) f.g s →
        EndsV (.lscale f) f.vd.toNat (mkTag f.ty.toNat (scaleA + δ)) m a s)
    ∧ Ends (.lmul f) (fun _ l e r => (A l e = nar ∨ B l e = nar → r.toNat = nar)
        ∧ (A l e ≠ nar → B l e ≠ nar → A l e = 0 ∨ B l e = 0 → r = 0))
    ∧ Ends (.ldiv f) (fun t l e r => (A l e = nar ∨ B l e = nar → r.toNat = nar)
        ∧ (A l e ≠ nar → B l e = 0 → r.toNat = nar ∧ t.cur.y.flg.getLsbD 7 = true
            ∧ t.cur.y.flg.getLsbD (if A l e = 0 then 3 else 4) = true)
        ∧ (A l e = 0 → B l e ≠ 0 → B l e ≠ nar → r = 0))
    ∧ Ends (.lsqr f) (fun _ l e r => (A l e = nar → r.toNat = nar) ∧ (A l e = 0 → r = 0))
    ∧ Ends (.lsqrt f) (fun t l e r => (A l e = nar → r.toNat = nar) ∧ (A l e = 0 → r = 0)
        ∧ (nar < A l e → r.toNat = nar ∧ t.cur.y.flg.getLsbD 3 = true ∧ t.cur.y.flg.getLsbD 7 = true))

open Sys2Proof Sys2Proof.Machine in
/-- R32, R36, R91, R103, R104, R292, R315, R332, R356: NOP, the work identifier, and reads and writes of the system registers. A
write of a register that its form does not grant changes nothing. -/
def Obligations.SystemRegisters : Prop :=
  ∀ s : State,
    (illegal .nop s = none → loadWait .nop s.cur = false → ∃ t, exec .nop s = .next t ∧ WroteNone s t)
    ∧ (∀ f : S3, Issues (.swid f) f.g s →
        (f.sub = 6 → EndsS (.swid f) f.sd.toNat s.cur.pl.wid0 s)
        ∧ (∀ a w b, f.sub.toNat < 6 → (s.launch s.cur.pl.launch).hdr.widths = a ++ w :: b → a.length = f.sub.toNat →
            EndsS (.swid f) f.sd.toNat (BitVec.ofNat 64 (s.cur.pl.wid0.toNat / 2 ^ a.sum % 2 ^ w)) s)
        ∧ (f.sub.toNat < 6 → (s.launch s.cur.pl.launch).hdr.widths.length ≤ f.sub.toNat →
            EndsS (.swid f) f.sd.toNat 0 s))
    ∧ (∀ f : SI, Issues (.srr f) f.g s →
        (f.imm = 0x011 → EndsS (.srr f) f.sd.toNat s.cur.y.flg s)
        ∧ (f.imm = 0x012 → EndsS (.srr f) f.sd.toNat s.cur.bow.eflg s)
        ∧ (f.imm = 0x013 → EndsS (.srr f) f.sd.toNat s.cur.y.slim s)
        ∧ (f.imm = 0x014 → EndsS (.srr f) f.sd.toNat s.cur.y.sptr s)
        ∧ (f.imm = 0x016 → EndsS (.srr f) f.sd.toNat s.cur.y.wswin s)
        ∧ (f.imm = 0x017 → EndsS (.srr f) f.sd.toNat s.cur.y.ppoll s)
        ∧ (f.imm = 0x01A → EndsS (.srr f) f.sd.toNat (BitVec.ofNat 64 s.now) s)
        ∧ (f.imm = 0x010 → ∃ v, EndsS (.srr f) f.sd.toNat v s ∧ getBits v 36 4 = s.podn.toNat ∧ getBits v 32 4 = s.pkg.toNat
            ∧ getBits v 15 9 = s.cur.pl.core % 512 ∧ getBits v 10 5 = s.cur.pl.slot % 32)
        ∧ (f.imm = 0x021 → ∃ v, EndsS (.srr f) f.sd.toNat v s ∧ bit v 0 = s.cur.c.priv
            ∧ getBits v 32 16 = (s.asidOf s.cur).toNat)
        ∧ ∃ v, EndsS (.srr f) f.sd.toNat v s)
    ∧ (∀ f : SI, Issues (.srw f) f.g s →
        let x := s.cur.r.getS f.sa.toNat
        ∃ t, exec (.srw f) s = .next t ∧ t.cur.r = s.cur.r ∧ Stepped s t ∧ t.mem = s.mem ∧ t.harts = s.harts
          ∧ (f.imm = 0x011 → t.cur.y.flg = x &&& 0xFFFF)
          ∧ (f.imm = 0x014 → t.cur.y.sptr = x ∧ t.cur.y.flg = s.cur.y.flg)
          ∧ (f.imm = 0x03A → (t.group s.cur.pl.group).crcons = x)
          ∧ (f.imm.toNat ∈ [0x010, 0x013, 0x015, 0x016, 0x017, 0x018, 0x01A, 0x021, 0x038] → WroteNone s t))
    ∧ (∀ f : FX, Issues (.srrp f) f.g s →
        (f.imm = 0x040 → EndsS (.srrp f) f.sd.toNat s.cur.t.tpc s)
        ∧ (f.imm = 0x041 → EndsS (.srrp f) f.sd.toNat s.cur.t.tstat s)
        ∧ (f.imm = 0x042 → EndsS (.srrp f) f.sd.toNat s.cur.t.tskid s)
        ∧ (f.imm = 0x043 → EndsS (.srrp f) f.sd.toNat s.cur.t.tsfov s)
        ∧ (f.imm = 0x020 → EndsS (.srrp f) f.sd.toNat s.myGroup.mctl s)
        ∧ (f.imm = 0x022 → EndsS (.srrp f) f.sd.toNat s.myGroup.hbase s)
        ∧ (∀ k, k < 4 → f.imm.toNat = 0x044 + k → EndsS (.srrp f) f.sd.toNat (vget s.cur.t.tscr k 0) s)
        ∧ ∃ v, EndsS (.srrp f) f.sd.toNat v s)
    ∧ (∀ f : FX, Issues (.srwp f) f.g s →
        let x := s.cur.r.getS f.sa.toNat
        ∃ t, exec (.srwp f) s = .next t ∧ t.cur.r = s.cur.r ∧ Stepped s t ∧ t.mem = s.mem ∧ t.harts = s.harts
          ∧ (f.imm = 0x040 → t.cur.t.tpc = x ∧ t.cur.t.tstat = s.cur.t.tstat)
          ∧ (f.imm = 0x041 → getBits t.cur.t.tstat 24 16 = getBits x 24 16 ∧ bit t.cur.t.tstat 17 = bit x 17
              ∧ getBits t.cur.t.tstat 0 16 = getBits s.cur.t.tstat 0 16 ∧ bit t.cur.t.tstat 18 = bit s.cur.t.tstat 18
              ∧ bit t.cur.t.tstat 19 = bit s.cur.t.tstat 19 ∧ bit t.cur.t.tstat 20 = bit s.cur.t.tstat 20)
          ∧ (f.imm = 0x042 → WroteNone s t)
          ∧ (f.imm = 0x022 → (t.group s.cur.pl.group).hbase = x &&& ~~~ 4095#64)
          ∧ (∀ k, k < 4 → f.imm.toNat = 0x044 + k → vget t.cur.t.tscr k 0 = x))

/-! ### Class 0x6 (R195 to R209) -/

open Sys2Proof Sys2Proof.Machine in
/-- R12, R195, R197, R202 to R205, R207 to R209: a returning access of a warp that passes the core's checks leaves the issue
stage with the addresses that its form gives, and its destinations are empty until it commits. Where the core has no room for
its requests, it waits; that a request is one line frame of an access without an answer is the model's choice (log entry 72). -/
def Obligations.LoadsIssue : Prop :=
  ∀ (s : State) (f : FM), s.cur.role = .warp →
    let m := laneMask s.cur f.g
    let base := s.cur.r.getS f.sa.toNat + f.off.signExtend 64
    let w := stWidth (stOf (f.ty.truncate 3)) / 8
    let k := 2 ^ (f.sub.toNat % 4)
    let row := fun l => base + BitVec.ofNat 64 l * s.cur.r.getS (lowS f.vx)
    let ix := fun l => ((s.cur.r.getV f.vx.toNat).lane l)
    let gather := fun l => s.cur.r.getS f.sa.toNat
      + (if f.sub.getLsbD 2 then (ix l).signExtend 64 else (ix l).setWidth 64) <<< (f.sub.toNat % 4) + f.off.signExtend 64
    let sp := s.cur.y.sptr
    let n := f.sub.toNat % 8 + 1
    let Issue := fun (i : Instr) (m : Word) (es : List Elem) (sp : Dword) (sd vd : List Nat) =>
      let room := s.requestRoom (framesOf (es.map (fun e => (e.ea, e.bytes)))) = true
      (room → ∃ t, exec i s = .next t ∧ t.cur.m.ga = s.cur.m.ga ∧ LoadIssued i m es sp sd vd s t)
      ∧ (¬ room → exec i s = .next { s with picked := false })
    (Issues (.sld f) f.g s → Readable w base →
      Issue (.sld f) 1 [{ lane := 0, reg := lowS f.d, ea := base, bytes := w }] sp [lowS f.d] [])
    ∧ (Issues (.vld f) f.g s → (∀ l ∈ lanesOf m, Readable 4 (base + BitVec.ofNat 64 (4 * l))) →
      Issue (.vld f) m (laneElems m f.d.toNat (fun l => base + BitVec.ofNat 64 (4 * l))) sp [] [f.d.toNat])
    ∧ (Issues (.vgld f) f.g s → (∀ l ∈ lanesOf m, Readable 4 (gather l)) → s.cur.m.ga.length < 63 →
      let es := laneElems m f.d.toNat gather
      let room := s.requestRoom (framesOf (es.map (fun e => (e.ea, e.bytes)))) = true
      (room → ∃ t, exec (.vgld f) s = .next t ∧ t.cur.m.ga.length = s.cur.m.ga.length + 1
        ∧ LoadIssued (.vgld f) m es sp [] [f.d.toNat] s t)
      ∧ (¬ room → exec (.vgld f) s = .next { s with picked := false }))
    ∧ (Issues (.vgld f) f.g s → (∀ l ∈ lanesOf m, Readable 4 (gather l)) → 63 ≤ s.cur.m.ga.length →
      exec (.vgld f) s = .next { s with picked := false })
    ∧ (Issues (.wld f) f.g s → (∀ l ∈ lanesOf m, ∀ j, j < k → Readable 4 (base + BitVec.ofNat 64 (128 * j + 4 * l))
          ∧ inWindow s.cur.y.wswin (base + BitVec.ofNat 64 (128 * j + 4 * l)) = true) →
      Issue (.wld f) m ((List.range k).flatMap (fun j =>
        laneElems m (f.d.toNat + j) (fun l => base + BitVec.ofNat 64 (128 * j + 4 * l)))) sp [] (upFrom f.d.toNat k))
    ∧ (Issues (.tld f) f.g s → (∀ l ∈ lanesOf m, Readable (4 * k) (row l)) →
      (s.cur.r.getS (lowS f.vx)).toNat % (4 * k) = 0 →
      Issue (.tld f) m ((List.range k).flatMap (fun j =>
        laneElems m (f.d.toNat + j) (fun l => row l + BitVec.ofNat 64 (4 * j)))) sp [] (upFrom f.d.toNat k))
    ∧ (Issues (.spop f) f.g s → sp.toNat % 8 = 0 → (∀ va ∈ wordsAt sp (8 * n), canonical va = true) →
      Issue (.spop f) 1 ((List.range n).map (fun j =>
          { lane := 0, reg := lowS f.d + j, ea := sp + BitVec.ofNat 64 (8 * j), bytes := 8 }))
        (sp + BitVec.ofNat 64 (8 * n)) (upFrom (lowS f.d) n) [])
    ∧ (Issues (.vpop f) f.g s → sp.toNat % 16 = 0 → (∀ va ∈ wordsAt sp (128 * n + 16), canonical va = true) →
      Issue (.vpop f) 0xFFFFFFFF
        ((List.range n).map (fun j => { lane := 32, reg := f.d.toNat + j, ea := sp + BitVec.ofNat 64 (2 * j), bytes := 2 })
          ++ (List.range n).flatMap (fun j =>
            laneElems 0xFFFFFFFF (f.d.toNat + j) (fun l => sp + BitVec.ofNat 64 (16 + 128 * j + 4 * l))))
        (sp + BitVec.ofNat 64 (128 * n + 16)) [] (upFrom f.d.toNat n))

open Sys2Proof Sys2Proof.Machine in
/-- R176, R199, R206, R340: LLD reads the scratchpad when it executes. The scalar form holds the value of the ST width at the
offset; the vector form holds one word for each active lane. Offsets beyond the scratchpad, or misaligned, raise class 3.
R89, R197, R199, R202: RD fixes what a pending load returns or the fault that it reports; the oldest confirmed access then
commits, its destination full; one with `nf` then leaves the mask of its faulted lanes in Pp; and a fault cancels the younger
accesses and traps at the access. Of this only the eviction of a span that a read makes room for (R179) writes memory. -/
def Obligations.LoadsReturn : Prop :=
  (∀ (s : State) (f : FM), Issues (.lld f) f.g s → s.cur.role = .warp →
      let g := s.group s.cur.pl.group
      let m := laneMask s.cur f.g
      let base := s.cur.r.getS f.sa.toNat + f.off.signExtend 64
      let w := stWidth (stOf (f.ty.truncate 3)) / 8
      let off := fun l => if f.sub.toNat % 2 = 1
        then base + ((s.cur.r.getV f.vx.toNat).lane l).setWidth 64 <<< (f.sub.toNat / 2 % 4) else base + BitVec.ofNat 64 (4 * l)
      let Fits := fun (n : Nat) (a : Dword) => a.toNat % n = 0 ∧ a.toNat + n ≤ g.scratchSize
      let clean := fun (n : Nat) (a : Dword) => ∀ x, x < n → a.toNat + x - (a.toNat + x) % 4 ∉ g.scratchBad
      (8 ≤ f.sub.toNat → Fits w base → clean w base →
        ∃ t r, exec (.lld f) s = .next t ∧ t.cur.m.returning = s.cur.m.returning ++ [r] ∧ r.confirmed = true ∧ r.trap = none
          ∧ r.got = [{ lane := 0, reg := lowS f.d, val := BitVec.ofNat 64 (memNat g.scratch base.toNat w), bad := false }]
          ∧ Emptied [lowS f.d] [] s.cur.r t.cur.r ∧ t.cur.m.stores = s.cur.m.stores ∧ Stepped s t ∧ OthersKept s t)
      ∧ (8 ≤ f.sub.toNat → ¬ Fits w base → settled s.cur = true →
        exec (.lld f) s = .next (s.takeTrap
          { cls := 3, kind := if base.toNat % w = 0 then kSCRATCH else kMISALIGN, va := base }
          (classFn (.lld f)).1 (classFn (.lld f)).2))
      ∧ (f.sub.toNat < 8 → (∀ l ∈ lanesOf m, Fits 4 (off l) ∧ clean 4 (off l)) →
        ∃ t r, exec (.lld f) s = .next t ∧ t.cur.m.returning = s.cur.m.returning ++ [r] ∧ r.confirmed = true ∧ r.trap = none
          ∧ r.got = (lanesOf m).map (fun l =>
              { lane := l, reg := f.d.toNat, val := BitVec.ofNat 64 (memNat g.scratch (off l).toNat 4), bad := false })
          ∧ Emptied [] [f.d.toNat] s.cur.r t.cur.r ∧ t.cur.m.stores = s.cur.m.stores ∧ Stepped s t ∧ OthersKept s t))
  ∧ ((∀ (s : State) (r : Ret) (f : FM) (e : Elem), s.cur.live = true → s.cur.m.returning = [r] → r.i = .sld f →
      r.elems = [e] → r.confirmed = false → r.trap = none → isAcq f.ord = false →
      (∀ st ∈ s.cur.m.stores, storeMeets st e.ea e.bytes = false) →
      (∀ va k u, s.xlatWords { fine := true } s.cur.c.priv (wordsAt e.ea e.bytes) = (.error (va, k), u) → u.cur = s.cur →
        ∃ t, exec (.rd (.hart s.cur.id) 0) s = .next t
          ∧ t.cur.m.returning = [{ r with got := [], trap := some { cls := 3, kind := k, va := refusedAt e.ea va } }]
          ∧ t.mem = u.mem ∧ t.cur.r = s.cur.r)
      ∧ (∀ ws u v b w, s.xlatWords { fine := true } s.cur.c.priv (wordsAt e.ea e.bytes) = (.ok ws, u) →
        (∀ x ∈ ws, x.2.kind ≠ 4) → u.readWaits ws = false →
        u.readElem u.me e.ea e.bytes ws = ((v, b), w) → u.cur = s.cur → w.cur = s.cur →
        let ks := ws.map u.nameOf
        ∃ t, exec (.rd (.hart s.cur.id) 0) s = .next t ∧ t.cur.r = s.cur.r
          ∧ ∃ q, t.cur.m.returning = [q] ∧ q.got = [{ lane := e.lane, reg := e.reg, val := v, bad := b }]
            ∧ (b = false → q.confirmed = true ∧ q.trap = none ∧ t.mem = ((w.fillSpans w.me ks).noteSpans w.me ks).mem)
            ∧ (b = true → q.confirmed = false ∧ ∃ c, q.trap = some c ∧ c.cls = 11)))
    ∧ (∀ (s : State) (r : Ret) (rest : List Ret), s.cur.live = true → s.cur.m.returning = r :: rest →
      (r.confirmed = false → exec (.returningAccessCommit s.cur.id) s = .next s)
      ∧ (∀ f p, r.confirmed = true → r.i = .vgld f → loadNf r.i = some p → p ≠ 0 →
        ∃ t, exec (.returningAccessCommit s.cur.id) s = .next t ∧ t.cur.m.returning = rest ∧ t.cur.r.getP p = r.nf)
      ∧ (∀ f g, r.confirmed = true → r.i = .sld f → r.got = [g] → g.reg = lowS f.d →
        ∃ t, exec (.returningAccessCommit s.cur.id) s = .next t ∧ t.cur.m.returning = rest
          ∧ (lowS f.d ≠ 0 → t.cur.r.getS (lowS f.d) = stBack (stOf (f.ty.truncate 3)) (stLow (stOf (f.ty.truncate 3)) g.val)
              ∧ t.cur.r.fullS (lowS f.d) = true)
          ∧ RegsKept [lowS f.d] [] [] [] s.cur.r t.cur.r ∧ OthersKept s t ∧ t.cur.c = s.cur.c)
      ∧ (∀ f, r.confirmed = true → r.i = .vld f → r.trap = none → r.got ≠ [] →
        (∀ g ∈ r.got, g.reg = f.d.toNat ∧ g.lane < 32) → r.got.Pairwise (fun a b => a.lane ≠ b.lane) →
        ∃ t, exec (.returningAccessCommit s.cur.id) s = .next t ∧ t.cur.m.returning = rest
          ∧ (∀ g ∈ r.got, (t.cur.r.getV f.d.toNat).lane g.lane = g.val.setWidth 32)
          ∧ (∀ l, (∀ g ∈ r.got, g.lane ≠ l) → (t.cur.r.getV f.d.toNat).lane l = (s.cur.r.getV f.d.toNat).lane l)
          ∧ (t.cur.r.getV f.d.toNat).tag = (if r.got.any (fun g => g.bad) then 0xF00 else f.ty ++ 0#8)
          ∧ t.cur.r.fullV f.d.toNat = true ∧ RegsKept [] [f.d.toNat] [] [] s.cur.r t.cur.r ∧ OthersKept s t
          ∧ t.cur.c = s.cur.c))
    ∧ (∀ (s : State) (r : Ret) (rest : List Ret) (c : Cause), s.cur.live = true → s.cur.role = .warp →
      s.cur.m.returning = r :: rest → r.trap = some c → r.confirmed = false → tsInh s.cur.t.tstat = false →
      (s.group s.cur.pl.group).halt = none → s.departing = false → c.cls < 12 →
      ∃ t, exec (.returningAccessFault s.cur.id) s = .next t ∧ t.cur.m.returning = [] ∧ t.cur.y.sptr = r.sptr
        ∧ t.cur.t.tpc = r.pc ∧ getBits t.cur.t.tstat 0 4 = c.cls ∧ t.cur.t.side.kind = BitVec.ofNat 4 c.kind
        ∧ t.cur.t.side.vaddr = c.va ∧ t.cur.t.side.lanes = faultMask c.lanes ∧ t.cur.c.priv = true ∧ t.mem = s.mem
        ∧ t.copies = s.copies
        ∧ (∀ x ∈ rest, ∀ n ∈ (uses x.i).vd, n < 1024 → t.cur.r.fullV n = true)))

open Sys2Proof Sys2Proof.Machine in
/-- R12, R195, R200, R202 to R204, R208, R209: a store of a warp that passes the core's checks and asks for no release retires
with the bytes that its form gives, and memory does not change until it is performed. SPUSH and VPUSH lower SPTR; the limit
of SLIM raises class 7. Where the core has no room for its requests, a store waits (what a request is: log entry 72). -/
def Obligations.StoresIssue : Prop :=
  ∀ (s : State) (f : FM), s.cur.role = .warp →
    let m := laneMask s.cur f.g
    let base := s.cur.r.getS f.sa.toNat + f.off.signExtend 64
    let w := stWidth (stOf (f.ty.truncate 3)) / 8
    let k := 2 ^ (f.sub.toNat % 4)
    let ix := fun l => ((s.cur.r.getV f.vx.toNat).lane l)
    let scatter := fun l => s.cur.r.getS f.sa.toNat
      + (if f.sub.getLsbD 2 then (ix l).signExtend 64 else (ix l).setWidth 64) <<< (f.sub.toNat % 4) + f.off.signExtend 64
    let row := fun l => base + BitVec.ofNat 64 l * s.cur.r.getS (lowS f.vx)
    let word := fun r l => leBytes 4 ((s.cur.r.getV r).lane l).toNat
    let n := f.sub.toNat % 8 + 1
    let low := fun b => s.cur.y.sptr - BitVec.ofNat 64 b
    let Plain := isRel f.ord = false
    let Room := fun (es : List StElem) => s.requestRoom (framesOf (es.map (fun e => (e.ea, e.data.length)))) = true
    let Stored := fun (i : Instr) (sc : Scope) (es : List StElem) =>
      (Room es → ∃ t, exec i s = .next t ∧ t.cur.y = s.cur.y ∧ t.cur.m.ga = s.cur.m.ga ∧ StoreIssued i sc es s t)
      ∧ (¬ Room es → exec i s = .next { s with picked := false })
    let Pushed := fun (i : Instr) (al b : Nat) (es : List StElem) =>
      (Issues i f.g s → s.cur.y.sptr.toNat % al = 0 → slimLimit s.cur.y.slim ≤ s.cur.y.sptr.toInt - b →
        (∀ e ∈ es, Writable s.cur 1 e.ea) →
        (Room es → ∃ t, exec i s = .next t ∧ t.cur.y = { s.cur.y with sptr := low b } ∧ t.cur.m.ga = s.cur.m.ga
          ∧ StoreIssued i .core es s t)
        ∧ (¬ Room es → exec i s = .next { s with picked := false }))
      ∧ (Issues i f.g s → s.cur.y.sptr.toNat % al = 0 → s.cur.y.sptr.toInt - b < slimLimit s.cur.y.slim →
        exec i s = .next (s.takeTrap { cls := 7 } (classFn i).1 (classFn i).2))
      ∧ (Issues i f.g s → s.cur.y.sptr.toNat % al ≠ 0 →
        exec i s = .next (s.takeTrap { cls := 3, kind := kMISALIGN, va := s.cur.y.sptr } (classFn i).1 (classFn i).2))
    (Issues (.sst f) f.g s → Plain → Writable s.cur w base →
      Stored (.sst f) f.sc [{ lane := 0, ea := base, data := leBytes w (s.cur.r.getS (lowS f.d)).toNat }])
    ∧ (Issues (.vst f) f.g s → Plain → (∀ l ∈ lanesOf m, Writable s.cur 4 (base + BitVec.ofNat 64 (4 * l))) →
      Stored (.vst f) f.sc ((lanesOf m).map (fun l =>
        { lane := l, ea := base + BitVec.ofNat 64 (4 * l), data := word f.d.toNat l })))
    ∧ (Issues (.vsct f) f.g s → Plain → (∀ l ∈ lanesOf m, Writable s.cur 4 (scatter l)) → s.cur.m.ga.length < 63 →
      let es : List StElem := (lanesOf m).map (fun l => { lane := l, ea := scatter l, data := word f.d.toNat l })
      (Room es → ∃ t, exec (.vsct f) s = .next t ∧ t.cur.y = s.cur.y ∧ t.cur.m.ga.length = s.cur.m.ga.length + 1
        ∧ StoreIssued (.vsct f) f.sc es s t)
      ∧ (¬ Room es → exec (.vsct f) s = .next { s with picked := false }))
    ∧ (Issues (.tst f) f.g s → Plain → (∀ l ∈ lanesOf m, Writable s.cur (4 * k) (row l)) →
      (s.cur.r.getS (lowS f.vx)).toNat % (4 * k) = 0 →
      Stored (.tst f) f.sc ((lanesOf m).flatMap (fun l => (List.range k).map (fun j =>
        { lane := l, ea := row l + BitVec.ofNat 64 (4 * j), data := word (f.d.toNat + j) l }))))
    ∧ Pushed (.spush f) 8 (8 * n) ((List.range n).map (fun j =>
        { lane := 0, ea := low (8 * n) + BitVec.ofNat 64 (8 * j), data := leBytes 8 (s.cur.r.getS (lowS f.d + j)).toNat }))
    ∧ Pushed (.vpush f) 16 (128 * n + 16)
        ({ lane := 32, ea := low (128 * n + 16), data := ((List.range n).flatMap (fun j =>
              leBytes 2 (s.cur.r.getV (f.d.toNat + j)).tag.toNat)) ++ List.replicate (16 - 2 * n) 0 }
          :: (List.range n).flatMap (fun j => (List.range 32).map (fun l =>
              { lane := l, ea := low (128 * n + 16) + BitVec.ofNat 64 (16 + 128 * j + 4 * l),
                data := word (f.d.toNat + j) l })))

/-! ### Class 0x7 (R211 to R217) and the scratchpad writes (R206, R213) -/

open Sys2Proof Sys2Proof.Machine in
/-- R173, R194, R211, R213, R217, R218: the new values of the atomics; a read-modify-write at the home slice, where the old value,
with what a recall brings, comes back and only its word of memory changes; and the instructions, each of which ends with the old value once its
translation, its release and the scope checker let it. A survivable one holds the next instruction back until its deltas are
acknowledged. -/
def Obligations.Atomics : Prop :=
  (∀ (w : Nat) (sg : Bool) (a b : BitVec w), 0 < w →
    atomNew 0 w sg a.toNat b.toNat = b.toNat ∧ atomNew 1 w sg a.toNat b.toNat = (a + b).toNat
    ∧ atomNew 2 w sg a.toNat b.toNat = (a &&& b).toNat ∧ atomNew 3 w sg a.toNat b.toNat = (a ||| b).toNat
    ∧ atomNew 4 w sg a.toNat b.toNat = (a ^^^ b).toNat
    ∧ atomNew 5 w sg a.toNat b.toNat = (if (if sg then b.slt a else b.ult a) then b else a).toNat
    ∧ atomNew 6 w sg a.toNat b.toNat = (if (if sg then a.slt b else a.ult b) then b else a).toNat)
  ∧ (∀ (s : State) (sc : Scope) (i : Issuer) (x : Dword × PWord) (g : Nat → Option Nat) (w : Word), s.levelOf i sc x.2 = 6 →
    s.gone x.2 = false → s.homeBase (s.needOf i (chainLevels i 5) (s.nameOf x)) x.2 = (w, false) → memWf s.mem = true →
    ∃ t, s.atomStep i sc [x] g = (.ok w.toNat, t)
      ∧ memWord t.mem (pwKey x.2) = (match g w.toNat with
        | some n => BitVec.ofNat 32 n
        | none => w)
      ∧ ∀ a, a < pwKey x.2 ∨ pwKey x.2 + 4 ≤ a → memGet t.mem a = memGet s.mem a)
  ∧ (∀ (s : State) (o : Order) (sc : Scope) (ws : List (Dword × PWord)),
    (s.acqAfter o sc ws).mem = s.mem ∧ (s.acqAfter o sc ws).cur = s.cur)
  ∧ (∀ (s : State) (f : FA),
    let base := s.cur.r.getS f.sa.toNat + f.off.signExtend 64
    let ty := stOf (f.ty.truncate 3)
    let n := stWidth ty / 8
    let X := s.cur.r.getS (lowS f.x)
    let Y := s.cur.r.getS (lowS f.y)
    let val := fun (o : Nat) => stBack ty (stLow ty (BitVec.ofNat 64 o))
    let Done := fun (i : Instr) (rel : Bool) (sc : Scope) (ord : Order) (al n : Nat) (ea : Dword) (g : Nat → Option Nat) (old : Nat)
        (y : State) =>
      ∃ ws q u u' v x, Writable s.cur al base
        ∧ s.xlatWords { write := true, atomic := true } s.cur.c.priv (wordsAt ea n) = (.ok ws, q)
        ∧ u = q.ownStoresFirst ea n ∧ u.ownWaits u.me sc (ws.map u.nameOf) true = []
        ∧ (if rel then u.release (relScope sc (ws.map (fun w => u.leafKind w.2))) 3 = (true, u') else u' = u)
        ∧ u'.checkAccess u'.me sc (ws.map u'.nameOf) true false = some v
        ∧ (v.ownSpans v.me sc true true (ws.map v.nameOf)).atomStep v.me sc ws g = (.ok old, x)
        ∧ y = ((x.noteSpans x.me (ws.map x.nameOf)).acqAfter ord sc ws).holdSurv i sc v.parity.sent.length
    let Ends := fun (i : Instr) (d : Nat) (v : Dword) (y : State) => ∃ t, exec i s = .next t ∧ WroteS d v y t ∧ t.mem = y.mem
    (∀ old y, Issues (.satom f) f.g s →
      Done (.satom f) (isRel f.ord) f.sc f.ord n n base
        (fun old => some (atomNew f.aop.toNat (stWidth ty) (WellFormed.stSigned ty) old X.toNat)) old y →
      Ends (.satom f) (lowS f.d) (val old) y)
    ∧ (∀ old y, Issues (.scas f) f.g s →
      Done (.scas f) (isRel f.ord) f.sc f.ord n n base
        (fun old => if old = (stLow ty X).toNat then some (stLow ty Y).toNat else none) old y →
      Ends (.scas f) (lowS f.d) (val old) y)
    ∧ (∀ old y, Issues (.tkreq f) f.g s →
      Done (.tkreq f) false .sys .rlx 16 8 base (fun old => some ((old + 1) % 2 ^ 64)) old y →
      Ends (.tkreq f) (lowS f.d) (BitVec.ofNat 64 old) y)
    ∧ (∀ old y, Issues (.tkserve f) f.g s →
      Done (.tkserve f) true .sys .rel 16 8 (base + 8) (fun old => some ((old + (if f.aop = 1 then X.toNat else 1)) % 2 ^ 64)) old y →
      Ends (.tkserve f) (lowS f.d) (BitVec.ofNat 64 (old + (if f.aop = 1 then X.toNat else 1))) y)
    ∧ (Issues (.satom f) f.g s → canonical base = true → base.toNat % n ≠ 0 →
      exec (.satom f) s = .next (s.takeTrap { cls := 3, kind := kMISALIGN, va := base }
        (classFn (.satom f)).1 (classFn (.satom f)).2 5)))

open Sys2Proof Sys2Proof.Machine in
/-- R204, R213: the vector atomics are carried out lane by lane in ascending order, and each lane of the destination receives
the old value of its word. That all lanes act in one step, with no access of another between them, is the model's choice (log
entry 14), and so is that VCAS completes whatever the tag of Vd, which it reads raw (log entry 67). -/
def Obligations.VectorAtomics : Prop :=
  ∀ (s : State) (f : FA),
    let m := laneMask s.cur f.g
    let ea := fun l => s.cur.r.getS f.sa.toNat + ((s.cur.r.getV f.x.toNat).lane l).setWidth 64 + f.off.signExtend 64
    let yl := fun l => (s.cur.r.getV f.y.toNat).lane l
    let dl := fun l => (s.cur.r.getV f.d.toNat).lane l
    let Ends := fun (i : Instr) (new : Nat → Nat → Option Nat) => ∀ ls u u' v os x, Issues i f.g s →
      (∀ l ∈ lanesOf m, Writable s.cur 4 (ea l)) →
      (∀ l ∈ lanesOf m, ∀ st ∈ s.cur.m.stores, storeMeets st (ea l) 4 = false) →
      s.xlatLanes ((lanesOf m).map (fun l => (l, ea l))) = (ls, u) →
      let ws := ls.flatMap (fun x => match x.ws with
        | .ok ws => ws
        | .error _ => [])
      (∀ x ∈ ls, ∃ ws, x.ws = .ok ws) →
      u.ownWaits u.me f.sc (ws.map u.nameOf) true = [] →
      (if isRel f.ord then u.release (relScope f.sc (ws.map (fun w => u.leafKind w.2))) 3 = (true, u') else u' = u) →
      u'.checkAccess u'.me f.sc (ws.map u'.nameOf) true false = some v →
      (v.ownSpans v.me f.sc true true (ws.map v.nameOf)).atomLanes f.sc f.d.toNat new ls = (os, x) →
      ∃ t, exec i s = .next t ∧ os.map (fun o => o.1) = lanesOf m
        ∧ (∀ l o, (l, some o) ∈ os → (t.cur.r.getV f.d.toNat).lane l = BitVec.ofNat 32 o)
        ∧ (∀ l, (∀ o, (l, some o) ∉ os) → (t.cur.r.getV f.d.toNat).lane l = (x.cur.r.getV f.d.toNat).lane l)
        ∧ (t.cur.r.getV f.d.toNat).tag = (if os.any (fun o => o.2.isNone) then 0xF00 else f.ty ++ 0#8)
        ∧ RegsKept [] [f.d.toNat] [] [] x.cur.r t.cur.r ∧ t.cur.c.pc = nextPc x.cur.c.pc
        ∧ t.mem = (x.noteSpans x.me (ws.map x.nameOf)).mem
    Ends (.vatom f) (fun l old => some (atomNew f.aop.toNat 32 (f.ty == 1) old (yl l).toNat))
    ∧ Ends (.vcas f) (fun l old => if old = (dl l).toNat then some (yl l).toNat else none)
    ∧ Ends (.fatom f) (fun l old => some (fatomWord f.ty f.aop.toNat (BitVec.ofNat 32 old) (yl l)).toNat)

open Sys2Proof Sys2Proof.Machine in
/-- R206, R213: LST and LATOM act on the scratchpad of the workgroup when they execute, lane by lane in ascending order, and
change nothing else of memory. -/
def Obligations.ScratchpadWrites : Prop :=
  (∀ (s u : State) (f : FM), Issues (.lst f) f.g s → s.cur.c.wait = none → u.memoryWf →
    (if isRel f.ord then s.release .core 3 = (true, u) else u = s) →
    let k := u.cur.pl.group
    let g := s.group s.cur.pl.group
    let m := laneMask s.cur f.g
    let base := s.cur.r.getS f.sa.toNat + f.off.signExtend 64
    let w := stWidth (stOf (f.ty.truncate 3)) / 8
    let off := fun l => if f.sub.toNat % 2 = 1
      then base + ((s.cur.r.getV f.vx.toNat).lane l).setWidth 64 <<< (f.sub.toNat / 2 % 4) else base + BitVec.ofNat 64 (4 * l)
    let Fits := fun (n : Nat) (a : Dword) => a.toNat % n = 0 ∧ a.toNat + n ≤ g.scratchSize ∧ notifies g a.toNat n = false
    let Ends := fun (t : State) => t.cur.r = u.cur.r ∧ t.mem = u.mem ∧ t.copies = u.copies ∧ Stepped u t
      ∧ (∀ j, j ≠ k → t.group j = u.group j)
      ∧ { t.group k with scratch := (u.group k).scratch, scratchBad := (u.group k).scratchBad } = u.group k
    (8 ≤ f.sub.toNat → Fits w base →
      ∃ t, exec (.lst f) s = .next t ∧ Ends t
        ∧ memRead (t.group k).scratch base.toNat w = leBytes w (s.cur.r.getS (lowS f.d)).toNat
        ∧ ∀ a, a < base.toNat ∨ base.toNat + w ≤ a → memGet (t.group k).scratch a = memGet (u.group k).scratch a)
    ∧ (f.sub.toNat < 8 → (∀ l ∈ lanesOf m, Fits 4 (off l)) →
      ∃ t, exec (.lst f) s = .next t ∧ Ends t
        ∧ (∀ l ∈ lanesOf m, (∀ j ∈ lanesOf m, l < j → off j ≠ off l) →
            memRead (t.group k).scratch (off l).toNat 4 = leBytes 4 ((s.cur.r.getV f.d.toNat).lane l).toNat)
        ∧ ∀ a, (∀ l ∈ lanesOf m, a < (off l).toNat ∨ (off l).toNat + 4 ≤ a) →
            memGet (t.group k).scratch a = memGet (u.group k).scratch a))
  ∧ (∀ (s : State) (f : FA), Issues (.latom f) f.g s → s.cur.c.wait = none → s.memoryWf →
    let k := s.cur.pl.group
    let g := s.group k
    let m := laneMask s.cur f.g
    let off := fun l => s.cur.r.getS f.sa.toNat + ((s.cur.r.getV f.x.toNat).lane l).setWidth 64 + f.off.signExtend 64
    (∀ l ∈ lanesOf m, (off l).toNat % 4 = 0 ∧ (off l).toNat + 4 ≤ g.scratchSize ∧ notifies g (off l).toNat 4 = false
      ∧ (off l).toNat ∉ g.scratchBad ∧ ∀ j ∈ lanesOf m, j ≠ l → off j ≠ off l) →
    ∃ t, exec (.latom f) s = .next t
      ∧ (∀ l ∈ lanesOf m, (t.cur.r.getV f.d.toNat).lane l = BitVec.ofNat 32 (memNat g.scratch (off l).toNat 4)
          ∧ memRead (t.group k).scratch (off l).toNat 4 = leBytes 4 (atomNew f.aop.toNat 32 (f.ty == 1)
              (memNat g.scratch (off l).toNat 4) ((s.cur.r.getV f.y.toNat).lane l).toNat))
      ∧ (∀ l, m.getLsbD l = false → (t.cur.r.getV f.d.toNat).lane l = (s.cur.r.getV f.d.toNat).lane l)
      ∧ (∀ a, (∀ l ∈ lanesOf m, a < (off l).toNat ∨ (off l).toNat + 4 ≤ a) → memGet (t.group k).scratch a = memGet g.scratch a)
      ∧ (t.cur.r.getV f.d.toNat).tag = f.ty ++ 0#8 ∧ RegsKept [] [f.d.toNat] [] [] s.cur.r t.cur.r ∧ Stepped s t
      ∧ t.mem = s.mem ∧ t.copies = s.copies ∧ t.harts = s.harts)

/-! ### Waits (R178, R214 to R217, R220, R224, R225, R291, R302) -/

open Sys2Proof Sys2Proof.Machine in
/-- R214, R216, R217, R220, R224, R225, R292, R302: each wait ends with the value that it read once its condition holds, or its
timeout has passed, and else keeps its place; WAITA_RECHECK, TKWAIT_RECHECK and ARRW_WAKE look again for a waiting stream and end
the wait, or keep it, in the same way, and a refresh window that ends lets WRSYNC go on. -/
def Obligations.Waits : Prop :=
  (∀ (s : State) (f : FA),
    let base := s.cur.r.getS f.sa.toNat + f.off.signExtend 64
    let ty := stOf (f.ty.truncate 3)
    let n := stWidth ty / 8
    let X := s.cur.r.getS (lowS f.x)
    let Y := (s.cur.r.getS (lowS f.y)).toNat
    let g := s.group s.cur.pl.group
    let late := fun (y : State) => Y ≠ 0 ∧ Y ≤ y.now - y.waitStart
    let Read := fun (sc : Scope) (al n : Nat) (ea v : Dword) (ws : List (Dword × PWord)) (y : State) => ∃ u w, Readable al base
      ∧ s.xlatWords {} s.cur.c.priv (wordsAt ea n) = (.ok ws, u)
      ∧ (let d := (u.ownStoresFirst ea n).dropSpan sc ws
         d.readWaits ws = false ∧ d.checkAccess d.me sc (ws.map d.nameOf) false true = some w)
      ∧ ∃ z, w.readElem w.me ea n ws = ((v, false), z)
        ∧ y = (z.fillSpans z.me (ws.map z.nameOf)).noteSpans z.me (ws.map z.nameOf)
    let Ends := fun (e : Instr) (p : Bool) (v : Dword) (y : State) =>
      ∃ t, exec e s = .next { t with picked := p } ∧ WroteS (lowS f.d) v y t
    let Stays := fun (e : Instr) (p : Bool) (i : Instr) (y : State) => ∃ t, exec e s = .next t ∧ t.cur.r = y.cur.r ∧ t.cur.c.pc = y.cur.c.pc
      ∧ t.cur.c.wait = some (match y.cur.c.wait with
        | some w => { w with seen := y.now }
        | none => { i := i, start := y.now, seen := y.now }) ∧ t.mem = y.mem ∧ t.picked = p
    let Looks := fun (i : Instr) (ready : Waiting → Bool) => s.cur.live = true ∧ tskHalted s.cur.t.tskid = false
      ∧ g.phase = .resident ∧ ∃ w, s.cur.c.wait = some w ∧ w.i = i ∧ ready w = true
    (∀ v ws y, Read f.sc n n base v ws y →
      let go := intCond f.aop.toNat (stArg ty v) (stArg ty X) = true ∨ late y
      let r := stBack ty (stLow ty v)
      (Issues (.waita f) f.g s → (go → Ends (.waita f) false r (y.acqAfter f.ord f.sc ws))
        ∧ (¬ go → Stays (.waita f) false (.waita f) y))
      ∧ (Looks (.waita f) (s.lookAgain base n) → y.cur.id = s.cur.id →
        (go → Ends (.waitaRecheck s.cur.id) s.picked r (y.acqAfter f.ord f.sc ws))
        ∧ (¬ go → Stays (.waitaRecheck s.cur.id) s.picked (.waita f) y)))
    ∧ (∀ v ws y, Read .sys 16 8 (base + 8) v ws y →
      let go := 0 ≤ (v - X).toInt ∨ late y
      (Issues (.tkwait f) f.g s → (go → Ends (.tkwait f) false v (y.acquireFor .sys 3))
        ∧ (¬ go → Stays (.tkwait f) false (.tkwait f) y))
      ∧ (Looks (.tkwait f) (s.lookAgain (base + 8) 8) → y.cur.id = s.cur.id →
        (go → Ends (.tkwaitRecheck s.cur.id) s.picked v (y.acquireFor .sys 3))
        ∧ (¬ go → Stays (.tkwaitRecheck s.cur.id) s.picked (.tkwait f) y)))
    ∧ (base.toNat % 8 = 0 → base.toNat + 8 ≤ g.scratchSize → base.toNat ∉ g.scratchBad → base.toNat + 4 ∉ g.scratchBad →
      let v := memNat g.scratch base.toNat 8
      let go := X.toNat ≤ v ∨ late s
      (Issues (.arrw f) f.g s → (go → Ends (.arrw f) false (BitVec.ofNat 64 v) (s.acquireFor .sys 3))
        ∧ (¬ go → Stays (.arrw f) false (.arrw f) s))
      ∧ (Looks (.arrw f) (fun _ => true) →
        (go → Ends (.arrwWake s.cur.id) s.picked (BitVec.ofNat 64 v) (s.acquireFor .sys 3))
        ∧ (¬ go → Stays (.arrwWake s.cur.id) s.picked (.arrw f) s))))
  ∧ (∀ (s : State) (f : FX),
    let ea := s.cur.r.getS f.sa.toNat + f.imm.signExtend 64
    let mask := s.cur.r.getS f.sb.toNat
    let g := s.group s.cur.pl.group
    let met := fun (v : Dword) => mask = 0 ∨ if f.sub.toNat / 2 % 2 = 1 then v &&& mask ≠ 0 else v &&& mask = mask
    let Stays := fun (i : Instr) (y : State) => ∃ t, exec i s = .next t ∧ t.cur.r = y.cur.r ∧ t.cur.c.pc = y.cur.c.pc
      ∧ t.cur.c.wait ≠ none ∧ t.mem = y.mem
    (Issues (.waitb f) f.g s → f.sub.toNat % 2 = 0 → ea.toNat % 8 = 0 → ea.toNat + 8 ≤ g.scratchSize →
      ea.toNat ∉ g.scratchBad → ea.toNat + 4 ∉ g.scratchBad →
      let v := BitVec.ofNat 64 (memNat g.scratch ea.toNat 8)
      (met v → ∃ t, exec (.waitb f) s = .next t ∧ WroteS f.sd.toNat v (s.acquireFor .core 3) t)
      ∧ (¬ met v → Stays (.waitb f) s))
    ∧ (∀ ws u v y, Issues (.waitb f) f.g s → f.sub.toNat % 2 = 1 → Readable 8 ea →
      s.xlatWords {} s.cur.c.priv (wordsAt ea 8) = (.ok ws, u) → (u.ownStoresFirst ea 8).readWaits ws = false →
      (∃ z, (u.ownStoresFirst ea 8).readElem (u.ownStoresFirst ea 8).me ea 8 ws = ((v, false), z)
        ∧ y = (z.fillSpans z.me (ws.map z.nameOf)).noteSpans z.me (ws.map z.nameOf)) →
      (met v → ∃ t, exec (.waitb f) s = .next t ∧ WroteS f.sd.toNat v (y.acquireFor .clus 3) t)
      ∧ (¬ met v → Stays (.waitb f) y))
    ∧ (Issues (.waitc f) f.g s →
      let c := f.imm.toNat % 4
      let count := if s.cur.role = .bowler then 0 else if c = 0 then s.cur.m.cp.length else if c = 1 then s.cur.m.mx.length
        else if c = 2 then s.cur.m.ga.length else s.cur.m.fb.length
      (count ≤ f.imm.toNat / 4 % 64 → ∃ t, exec (.waitc f) s = .next t ∧ WroteNone s t)
      ∧ (f.imm.toNat / 4 % 64 < count → Stays (.waitc f) s))
    ∧ (Issues (.wrsync f) f.g s → Stays (.wrsync f) s)
    ∧ (Issues (.napc f) f.g s →
      let n := (s.cur.r.getS f.sa.toNat).toNat % 2 ^ 32
      ∃ t, exec (.napc f) s = .next t ∧ t.cur.c.napEnd = (if n = 0 then none else some (s.now + n)) ∧ WroteNone s t))
  ∧ (∀ (s : State) (k : Nat), s.cur.id = k → s.cur.live = true →
    (∀ e, s.cur.c.napEnd = some e → (e ≤ s.now → ∃ t, exec (.napExpiry k) s = .next t ∧ t.cur.c.napEnd = none
        ∧ t.cur.r = s.cur.r ∧ t.mem = s.mem) ∧ (s.now < e → (∀ h ∈ s.harts, h.id ≠ k) → exec (.napExpiry k) s = .next s))
    ∧ (∀ w, s.cur.c.wait = some w → tskHalted s.cur.t.tskid = false → (s.group s.cur.pl.group).phase = .resident →
      (∀ f, w.i = .waita f → s.lookAgain (s.cur.r.getS f.sa.toNat + f.off.signExtend 64)
          (stWidth (stOf (f.ty.truncate 3)) / 8) w = false → exec (.waitaRecheck k) s = .next s)
      ∧ (∀ f, w.i = .tkwait f → s.lookAgain (s.cur.r.getS f.sa.toNat + f.off.signExtend 64 + 8) 8 w = false →
          exec (.tkwaitRecheck k) s = .next s)))
  ∧ (∀ (s : State) (d : Nat), (s.die d).openUntil = none →
    (s.clock < (s.die d).nominal → exec (.refreshWindowStart d) s = .next s)
    ∧ ((s.die d).nominal ≤ s.clock → s.dieHold d = false →
      ∃ t, exec (.refreshWindowStart d) s = .next t ∧ (t.die d).openUntil = some (s.clock + (s.die d).window)
        ∧ (t.die d).nominal = (s.die d).nominal + max (s.die d).period 1
        ∧ (t.die d).deferClocks = BitVec.ofNat 16 (s.clock - (s.die d).nominal) ∧ (t.die d).forced = (s.die d).forced
        ∧ { t with dies := s.dies } = s))
  ∧ (∀ (s : State) (d e : Nat), (s.die d).openUntil = some e →
    (s.clock < e → exec (.refreshWindowEnd d) s = .next s)
    ∧ (∀ (f : FX) (w : Waiting) (b : Nat), e ≤ s.clock → s.cur.c.wait = some w → w.i = .wrsync f → b = (s.die d).openBank →
      s.allHarts.filter (waitsFor d b) = [s.cur] → dieOf s.cur.pl.core = d →
      ∃ t, exec (.refreshWindowEnd d) s = .next t ∧ (t.die d).openUntil = none ∧ t.cur.c.pc = nextPc s.cur.c.pc
        ∧ t.cur.c.wait = none ∧ (f.sd.toNat ≠ 0 → t.cur.r.getS f.sd.toNat = phaseOf s)
        ∧ RegsKept [f.sd.toNat] [] [] [] s.cur.r t.cur.r ∧ t.mem = s.mem))

/-! ### Class 0x8 and pending stores (R171, R172, R184, R200, R219 to R223, R336, R337) -/

open Sys2Proof Sys2Proof.Machine in
/-- R171, R184, R219, R221, R222, R223: what the ordering instructions do, and what a release and an acquire leave. That CWB and
CWBI wait at issue while the core has no place for one more request is the model's reading (log entry 72). -/
def Obligations.Ordering : Prop :=
  (∀ (s : State) (sc : Scope) (p : Nat),
    let r := s.release sc p
    (maskBit p 1 = false → maskBit p 2 = false → maskBit p 3 = false → s.pushWaits (s.fenceLevel sc) = [] →
      r = (true, s.pushAll s.me (s.fenceLevel sc))) ∧ r.2.cur.r = s.cur.r ∧ r.2.cur.c = s.cur.c
    ∧ (r.1 = true → maskBit p 1 = true → r.2.cur.m.stores = [])
    ∧ (r.1 = true → maskBit p 2 = true ∨ maskBit p 3 = true → r.2.cur.m.cp = [] ∧ r.2.cur.m.fb = []))
  ∧ (∀ (s : State) (sc : Scope) (p : Nat), s.cur.role = .warp → scopeNum sc ≠ 0 → maskBit p 0 = true →
    (s.acquireFor sc p).mem = s.mem ∧ (s.acquireFor sc p).cur = s.cur
    ∧ ∀ c ∈ (s.acquireFor sc p).copies, c.node = { level := 0, idx := s.cur.pl.core } → c.key.pw.kind ≠ 2 →
        c.st ≠ .s ∧ c.st ≠ .e)
  ∧ (∀ (s : State) (f : FX),
    let sc := scopeOfCode (f.sub.truncate 3)
    (Issues (.fence f) f.g s → f.imm.toNat % 4096 = 0 → ∃ t, exec (.fence f) s = .next t ∧ WroteNone s t)
    ∧ (∀ u, Issues (.fence f) f.g s → f.imm.toNat % 4096 ≠ 0 → s.release sc (f.imm.toNat % 64) = (true, u) →
      ∃ t, exec (.fence f) s = .next t ∧ WroteNone (u.acquireFor sc (f.imm.toNat / 64 % 64)) t)
    ∧ (∀ u, Issues (.fence f) f.g s → f.imm.toNat % 4096 ≠ 0 → s.release sc (f.imm.toNat % 64) = (false, u) →
      exec (.fence f) s = .next { u with picked := false })
    ∧ (Issues (.drainst f) f.g s → s.drain.cur.m.stores = [] → ∃ t, exec (.drainst f) s = .next t ∧ WroteNone s.drain t)
    ∧ (Issues (.drainst f) f.g s → s.drain.cur.m.stores ≠ [] →
      ∃ t, exec (.drainst f) s = .next t ∧ t.cur.c.pc = s.drain.cur.c.pc ∧ t.cur.c.wait ≠ none ∧ t.cur.r = s.drain.cur.r
        ∧ t.mem = s.drain.mem))
  ∧ (∀ (s : State) (f : FM),
    let ea := (s.cur.r.getS f.sa.toNat + f.off.signExtend 64).toNat
    let n := (s.cur.r.getS (lowS f.d)).toNat % 2 ^ 32
    let Queued := fun (i : Instr) => Issues i f.g s →
      (n = 0 → ∃ t, exec i s = .next t ∧ WroteNone s t)
      ∧ (n ≠ 0 → s.requestRoom 1 = false → exec i s = .next { s with picked := false })
      ∧ (n ≠ 0 → s.requestRoom 1 = true → ∃ t st, exec i s = .next t ∧ t.cur.m.stores = s.cur.m.stores ++ [st] ∧ st.i = i ∧ st.range = some (ea, n)
          ∧ st.elems = [] ∧ st.scope = f.sc ∧ t.cur.r = s.cur.r ∧ Stepped s t ∧ OthersKept s t)
    Queued (.cwb f) ∧ Queued (.cwbi f)
    ∧ (Issues (.cinv f) f.g s → s.cur.m.stores = [] → s.cur.m.sfrecs = [] →
      ∃ t, exec (.cinv f) s = .next t ∧ t.mem = s.mem ∧ t.cur.r = s.cur.r ∧ t.cur.c.pc = nextPc s.cur.c.pc ∧ t.harts = s.harts)
    ∧ (Issues (.pref f) f.g s →
      ∃ t, exec (.pref f) s = .next t ∧ t.cur.r = s.cur.r ∧ t.cur.c.pc = nextPc s.cur.c.pc ∧ t.cur.m = s.cur.m
        ∧ t.harts = s.harts ∧ (f.sub.toNat < 4 → t.mem = s.mem)))

open Sys2Proof Sys2Proof.Machine in
/-- R200, R231, R336, R337: a pending store is written when it is performed, or its fault is found; the fault is entered in
the core's queue as a record; and a warp takes class 4 for its oldest record, then class 10 for a failed command, at its next
instruction boundary. -/
def Obligations.StoresReport : Prop :=
  (∀ (s : State) (st : Store) (e : StElem), s.cur.m.stores = [st] → st.elems = [e] → st.range = none → st.faults = [] →
    st.acks = [] → st.scope ≠ .surv → s.storeWaits st = [] →
    (∀ ws u w, s.xlatWords { write := true, fine := fineStore st.i } st.priv (wordsAt e.ea e.data.length) = (.ok ws, u) →
      (∀ x ∈ ws, x.2.kind ≠ 2) →
      (u.ownSpans u.me st.scope (relStore st.i) false (ws.map u.nameOf)).writeElem u.me st.scope (relStore st.i) e.ea e.data ws = w →
      u.cur = s.cur → w.cur = s.cur →
      ∃ t, exec (.own (.hart s.cur.id 0) []) s = .next t ∧ t.cur.m.stores = []
        ∧ t.mem = (w.noteSpans u.me (ws.map u.nameOf)).mem ∧ t.copies = (w.noteSpans u.me (ws.map u.nameOf)).copies ∧ t.cur.r = s.cur.r ∧ t.cur.c = s.cur.c)
    ∧ (∀ va k u, s.xlatWords { write := true, fine := fineStore st.i } st.priv (wordsAt e.ea e.data.length) =
        (.error (va, k), u) → u.cur = s.cur →
      ∃ t, exec (.own (.hart s.cur.id 0) []) s = .next t ∧ t.mem = u.mem ∧ t.copies = u.copies
        ∧ t.cur.m.stores = [{ st with elems := [], faults := [{ lane := e.lane, kind := k, va := refusedAt e.ea va }], pool := [] }])
    ∧ (st.stack = true → exec (.stackSpillFill s.cur.id true) s = exec (.own (.hart s.cur.id 0) []) s))
  ∧ (∀ (s : State) (h : Nat), exec (.stackSpillFill h false) s = .next s)
  ∧ (∀ (s : State) (st : Store) (x : LaneFault), s.cur.role = .warp → s.cur.m.stores = [st] → st.elems = [] →
    st.range = none → st.faults = [x] → x.lane < 32 → (s.group s.cur.pl.group).phase = .resident →
    (16 ≤ s.queueLen s.cur.pl.core → exec (.storeFaultReport s.cur.id) s = .next s)
    ∧ (s.queueLen s.cur.pl.core < 16 → ∃ t r, exec (.storeFaultReport s.cur.id) s = .next t ∧ t.cur.m.stores = []
        ∧ t.cur.m.sfrecs = s.cur.m.sfrecs ++ [r] ∧ r.pc = st.pc ∧ r.va = x.va ∧ r.kind = BitVec.ofNat 4 x.kind
        ∧ r.lanes = (if laneStore st.i then 1#32 <<< x.lane else 1) ∧ r.slot = BitVec.ofNat 5 s.cur.pl.slot
        ∧ r.issued = BitVec.ofNat 32 (min (s.cur.c.issued - st.issuedAt) (2 ^ 32 - 1)) ∧ r.kept = false
        ∧ t.cur.r = s.cur.r ∧ t.mem = s.mem ∧ t.harts = s.harts))
  ∧ (∀ s : State, s.cur.role = .warp → s.cur.live = true → s.atBoundary s.cur = true → settled s.cur = true →
    tsInh s.cur.t.tstat = false → (s.group s.cur.pl.group).halt = none → s.departing = false → lowestPend s.cur.t.tstat = none →
    let Entered := fun (t : State) (c : Nat) => getBits t.cur.t.tstat 0 4 = c ∧ t.cur.t.tpc = s.cur.c.pc
      ∧ t.cur.c.pc = ((s.group s.cur.pl.group).hbase &&& ~~~ 4095#64) + BitVec.ofNat 64 (256 * c)
      ∧ t.cur.c.priv = true ∧ t.cur.r = s.cur.r ∧ t.mem = s.mem ∧ t.cur.t.side.cls = BitVec.ofNat 4 c
    (∀ r rest, s.cur.m.sfrecs = r :: rest →
      (∃ t, exec (.pendingStoreFaultTrap s.cur.id) s = .next t ∧ Entered t 4 ∧ t.cur.t.side.pc = r.pc
        ∧ t.cur.t.side.vaddr = r.va ∧ t.cur.t.side.lanes = r.lanes ∧ t.cur.t.side.kind = r.kind ∧ t.cur.m.sfrecs = r :: rest)
      ∧ exec (.commandFailureTrap s.cur.id) s = .next s)
    ∧ (∀ f, s.cur.m.sfrecs = [] → s.cur.m.nextFail = some f →
      (∃ t, exec (.commandFailureTrap s.cur.id) s = .next t ∧ Entered t 10
        ∧ t.cur.t.side.reason = BitVec.ofNat 8 f.reason ∧ t.cur.t.side.vaddr = f.va
        ∧ t.cur.t.side.detail = BitVec.ofNat 64 f.token ∧ t.cur.m.fails = s.cur.m.fails.erase f)
      ∧ exec (.pendingStoreFaultTrap s.cur.id) s = .next s))

/-! ### The remaining forms of class 0x1 (R262, R295 to R297, R302) -/

open Sys2Proof Sys2Proof.Machine in
/-- R136, R261, R262, R263, R295, R296, R297, R301, R302: EXIT, the barriers, ENQ and the hints. A barrier that its warp completes
lets it go on, also one that waited for the warp that exits; one that others have still to reach holds it; a count or a scope that
R296 and R297 forbid raises class 9. That BARG of the seed raises reason 5 whatever its scope is the model's reading (log entry 38).
An accepted range stands last in its launch's list, but before one that a warp of a higher wave slot of the core was granted in the
same core clock. -/
def Obligations.ControlForms : Prop :=
  ∀ (s : State) (f : FX),
    let k := s.cur.pl.group
    let g := s.group k
    let sc := scopeOfCode (f.sub.truncate 3)
    (Issues (.exit f) f.g s → s.cur.role = .warp → s.cur.m.stores = [] → s.cur.m.sfrecs = [] → g.bcount = none →
      (g.seed = true ∨ ∀ h ∈ s.harts, h.c.arrivedGang = false) →
      ∃ t, exec (.exit f) s = .next t ∧ t.cur.live = false
        ∧ (t.launch s.cur.pl.launch).counter = (s.launch s.cur.pl.launch).counter - 1 ∧ t.mem = s.mem ∧ t.hostMem = s.hostMem
        ∧ (s.warpsOf k = [s.cur] → (t.group k).phase = .ended)
        ∧ (g.halt ≠ some s.cur.id → t.harts = s.harts))
    ∧ (∀ h, Issues (.exit f) f.g s → s.cur.role = .warp → s.cur.m.stores = [] → s.cur.m.sfrecs = [] → g.bcount = none →
      g.seed = false → g.phase ≠ .ended → g.halt = none → (s.gang g.gang).groups = [k] → s.warpsOf k = [s.cur, h] →
      h.c.arrivedGang = true → s.streamsDistinct →
      ∃ t, exec (.exit f) s = .next t ∧ t.cur.live = false ∧ t.mem = s.mem
        ∧ ∃ x ∈ t.harts, x.id = h.id ∧ x.c.arrivedGang = false ∧ x.c.wait = none ∧ x.c.pc = nextPc h.c.pc)
    ∧ (Issues (.exit f) f.g s → s.cur.role = .bowler → ∃ t, exec (.exit f) s = .next t ∧ t.cur.live = false)
    ∧ (∀ u, Issues (.bar f) f.g s → s.cur.c.arrivedBar = false → s.release sc 0x2B = (true, u) → u.cur = s.cur →
      u.group k = g →
      let n := f.imm.toNat % 32
      (n ≤ (u.warpsOf k).length → (g.bcount = none ∨ g.bcount = some n) → u.warpsOf k = [u.cur] →
        ∃ t, exec (.bar f) s = .next t ∧ t.cur.c.pc = nextPc s.cur.c.pc ∧ t.cur.c.arrivedBar = false ∧ t.cur.c.wait = none
          ∧ (t.group k).bcount = none ∧ t.cur.r = s.cur.r ∧ t.mem = u.mem)
      ∧ (n ≤ (u.warpsOf k).length → (g.bcount = none ∨ g.bcount = some n) →
        ((u.warpsOf k).filter (fun h => h.c.arrivedBar)).length + 1 < (if n = 0 then (u.warpsOf k).length else n) →
        s.cur.live = true →
        ∃ t, exec (.bar f) s = .next t ∧ t.cur.c.pc = s.cur.c.pc ∧ t.cur.c.arrivedBar = true ∧ (t.group k).bcount = some n
          ∧ t.cur.r = s.cur.r ∧ t.mem = u.mem ∧ t.harts = u.harts)
      ∧ ((u.warpsOf k).length < n →
        exec (.bar f) s = .next (u.takeTrap { cls := 9, reason := 1 } (classFn (.bar f)).1 (classFn (.bar f)).2))
      ∧ (∀ m, n ≤ (u.warpsOf k).length → g.bcount = some m → m ≠ n →
        exec (.bar f) s = .next (u.takeTrap { cls := 9, reason := 2 } (classFn (.bar f)).1 (classFn (.bar f)).2)))
    ∧ (Issues (.barg f) f.g s → s.cur.c.arrivedGang = false →
      (g.seed = true →
        exec (.barg f) s = .next (s.takeTrap { cls := 9, reason := 5 } (classFn (.barg f)).1 (classFn (.barg f)).2))
      ∧ (g.seed = false → scopeNum sc < (s.launch s.cur.pl.launch).hdr.coloc →
        exec (.barg f) s = .next (s.takeTrap { cls := 9, reason := 4 } (classFn (.barg f)).1 (classFn (.barg f)).2))
      ∧ (∀ u, g.seed = false → (s.launch s.cur.pl.launch).hdr.coloc ≤ scopeNum sc → s.release sc 0x2B = (true, u) →
        u.cur = s.cur → u.group k = g → (u.gang g.gang).groups = [k] → g.phase ≠ .ended → u.warpsOf k = [u.cur] →
        ∃ t, exec (.barg f) s = .next t ∧ t.cur.c.pc = nextPc s.cur.c.pc ∧ t.cur.c.arrivedGang = false ∧ t.cur.c.wait = none
          ∧ t.cur.r = s.cur.r ∧ t.mem = u.mem))
    ∧ (∀ u, Issues (.enq f) f.g s → s.release sc 0x2B = (true, u) → u.cur = s.cur →
      let first := (s.cur.r.getS f.sa.toNat).toNat
      let n := (s.cur.r.getS f.sd.toNat).toNat
      let l := u.launch s.cur.pl.launch
      let whole := first % l.hdr.gangSize = 0 ∧ n % l.hdr.gangSize = 0 ∧ first + n ≤ l.hdr.grid
      let x : Pending := .range first n (s.cur.r.getS f.sb.toNat) sc u.clock
      let before := (u.core s.cur.pl.core).enq
      (n = 0 → ∃ t, exec (.enq f) s = .next t ∧ WroteNone u t)
      ∧ (n ≠ 0 → whole → l.counter + n * l.hdr.warps ≤ 2 ^ 48 - 1 →
        ∃ t, exec (.enq f) s = .next t ∧ (t.launch s.cur.pl.launch).counter = l.counter + n * l.hdr.warps
          ∧ ((∀ slot a, before = some (slot, s.cur.pl.launch, a) → slot ≤ s.cur.pl.slot) →
              (t.launch s.cur.pl.launch).pending = l.pending ++ [x])
          ∧ (∀ slot a p q r o y z, before = some (slot, s.cur.pl.launch, a) → s.cur.pl.slot < slot →
              l.pending = y ++ .range p q r o a :: z → (∀ w ∈ y, ∀ p q r o, w ≠ .range p q r o a) →
              (t.launch s.cur.pl.launch).pending = y ++ x :: .range p q r o a :: z)
          ∧ (t.core s.cur.pl.core).enq = some (s.cur.pl.slot, s.cur.pl.launch, u.clock)
          ∧ t.cur.r = s.cur.r ∧ Stepped u t
          ∧ { t with cur := u.cur, launches := u.launches, cores := u.cores, picked := u.picked } = u)
      ∧ (n ≠ 0 → ¬ whole →
        exec (.enq f) s = .next (u.takeTrap { cls := 10, reason := 23 } (classFn (.enq f)).1 (classFn (.enq f)).2))
      ∧ (n ≠ 0 → whole → 2 ^ 48 - 1 < l.counter + n * l.hdr.warps →
        exec (.enq f) s = .next (u.takeTrap { cls := 10, reason := 24 } (classFn (.enq f)).1 (classFn (.enq f)).2)))
    ∧ (Issues (.yield f) f.g s → ∃ t, exec (.yield f) s = .next t ∧ t.cur.sch.lastPick = some s.clock ∧ WroteNone s t)
    ∧ (Issues (.pfh f) f.g s → ∃ t, exec (.pfh f) s = .next t ∧ t.cur.r = s.cur.r ∧ t.cur.c.pc = nextPc s.cur.c.pc
        ∧ t.cur.c.em = s.cur.c.em ∧ t.mem = s.mem ∧ t.harts = s.harts)

/-! ### Class 0x9: commands (R189, R228 to R238, R246, R252, R254) -/

open Sys2Proof Sys2Proof.Machine in
/-- R40, R189, R228, R229, R230, R231: a command that passes its checks leaves the issue stage with its operands, its counter
raised and its token empty, and changes no memory; one of length 0 completes at once, and its counter reports it in its turn; an
address that the core refuses raises class 3, and any other refusal class 10. A command is carried out to its end or fails; its
writes are performed at its scope, and its bitmap complete, before it ends (R193, R194, R236); a pool command goes to the device
that advertises it (R251), and POOLRED reads and writes apart where it is streamed (R253). A completion fills the token and
lowers the counter; a failure of a command of a live workgroup is kept for its warp. The model's own choices here: BITMAP_CHUNK_SET
moves the copy on to its chunk (log entry 60), a streamed POOLFILL, POOLCOPY or POOLCMP is carried out in one event (log entry 74),
and a bit that would go into an uncorrectable word of the bitmap fails the copy (log entry 83). -/
def Obligations.Commands : Prop :=
  (∀ (s : State) (f : FA),
    let Starts := fun (i : Instr) (fn : Nat) => Issues i f.g s →
      let c := mkCmd f fn s
      let fabric := fn = 4 ∨ fn = 5
      let count := if fabric then s.cur.m.fb.length else s.cur.m.cp.length
      (s.cmdRefusal s.cur.y.wswin c = none → isRel f.ord = false → c.empty = false → count < 63 →
        (∀ h ∈ s.harts, h.id ≠ s.cur.id) →
        ∃ t, exec i s = .next t ∧ t.cmds = s.cmds ++ [{ c with id := s.nextId }] ∧ t.nextId = s.nextId + 1
          ∧ (fabric → t.cur.m.fb = s.cur.m.fb ++ [{ id := s.nextId, done := false }] ∧ t.cur.r = s.cur.r)
          ∧ (¬ fabric → t.cur.m.cp = s.cur.m.cp ++ [{ id := s.nextId, done := false }]
              ∧ Emptied [lowS f.d] [] s.cur.r t.cur.r)
          ∧ Stepped s t ∧ { t with cur := s.cur, picked := s.picked, cmds := s.cmds, nextId := s.nextId } = s)
      ∧ (s.cmdRefusal s.cur.y.wswin c = none → isRel f.ord = false → c.empty = true → count < 63 →
        (∀ h ∈ s.harts, h.id ≠ s.cur.id) → s.cur.live = true → s.groupLives s.cur.pl.group = true →
        ∃ t, exec i s = .next t ∧ t.cmds = s.cmds.filter (fun x => x.id != s.nextId) ∧ t.nextId = s.nextId + 1
          ∧ (fabric → t.cur.m.fb = opsDone (s.cur.m.fb ++ [{ id := s.nextId, done := false }]) s.nextId ∧ t.cur.r = s.cur.r)
          ∧ (¬ fabric → t.cur.m.cp = opsDone (s.cur.m.cp ++ [{ id := s.nextId, done := false }]) s.nextId
              ∧ (lowS f.d ≠ 0 → t.cur.r.getS (lowS f.d) = 0 ∧ t.cur.r.fullS (lowS f.d) = true)
              ∧ RegsKept [lowS f.d] [] [] [] s.cur.r t.cur.r)
          ∧ Stepped s t
          ∧ { t with cur := s.cur, picked := s.picked, cmds := s.cmds, nextId := s.nextId, fabric := s.fabric } = s)
      ∧ (∀ e, s.cmdRefusal s.cur.y.wswin c = some e → e.reason = 18 → exec i s = .next
          (s.takeTrap { cls := 3, kind := e.kind, va := BitVec.ofNat 64 e.va } (classFn i).1 (classFn i).2))
      ∧ (∀ e, s.cmdRefusal s.cur.y.wswin c = some e → e.reason ≠ 18 → exec i s = .next
          (s.takeTrap { cls := 10, reason := e.reason, detail := if fabric then 0 else BitVec.ofNat 64 (lowS f.d) }
            (classFn i).1 (classFn i).2))
      ∧ (s.cmdRefusal s.cur.y.wswin c = none → isRel f.ord = false → 63 ≤ count →
        exec i s = .next { s with picked := false })
      ∧ (∀ u, s.cmdRefusal s.cur.y.wswin c = none → isRel f.ord = true → s.release (cmdScope f.sc) 3 = (false, u) →
        exec i s = .next { u with picked := false })
      ∧ (∀ u, s.cmdRefusal s.cur.y.wswin c = none → isRel f.ord = true → s.release (cmdScope f.sc) 3 = (true, u) →
        c.empty = false → count < 63 →
        ∃ t, exec i s = .next t ∧ t.cmds = u.cmds ++ [{ c with id := u.nextId }] ∧ t.mem = u.mem)
    Starts (.cpy f) 0 ∧ Starts (.cpy2d f) 1 ∧ Starts (.cpysp f) 2 ∧ Starts (.csrwk f) 3 ∧ Starts (.xfer f) 4
    ∧ Starts (.xget f) 5 ∧ Starts (.poolfill f) 6 ∧ Starts (.poolcopy f) 7 ∧ Starts (.poolcmp f) 8 ∧ Starts (.poolred f) 9)
  ∧ (∀ (s : State) (id : Nat), s.cmd? id = none → exec (.commandComplete id) s = .next s
      ∧ (∀ w, exec (.commandFailure id w) s = .next s) ∧ (∀ k, exec (.bitmapChunkSet ⟨id, k⟩) s = .next s)
      ∧ ∀ e, exec (.poolDeviceCompletion id e) s = .next s)
  ∧ (∀ (s : State) (id : Nat) (c : Cmd), s.cmd? id = some c → c.id = id →
    (∀ d u, c.fn ≤ 1 → c.fin = none → s.moveTo c (c.total / 4) = (.ok d, u) → u.cmd? id = some d →
      (u.acksIn d.acks = true → u.cmdPool d = false → u.bitFail d (List.range d.chunks) = none →
        exec (.commandComplete id) s = .next ((u.markAll d).cmdDone d d.total false))
      ∧ (∀ e, u.acksIn d.acks = true → u.cmdPool d = false → u.bitFail d (List.range d.chunks) = some e →
        e.reason = 18 ∧ e.kind = 0 ∧ exec (.commandComplete id) s = .next (u.cmdFail d e))
      ∧ (u.acksIn d.acks = false ∨ u.cmdPool d = true →
        exec (.commandComplete id) s = .next (u.setCmd { d with fin := some (d.total, false) })))
    ∧ ((c.fn = 4 ∨ c.fn = 5) → s.ownHeld c = true → exec (.commandComplete id) s = .next s)
    ∧ (∀ n m, c.fn ≤ 3 → c.fin = some (n, m) → s.acksIn c.acks = true → s.cmdPool c = false →
      s.bitFail c (List.range c.chunks) = none →
      exec (.commandComplete id) s = .next ((s.markAll c).cmdDone c n m))
    ∧ (∀ n m u, 2 ≤ c.fn → c.fn ≤ 8 → (c.fn ≤ 3 ∨ 6 ≤ c.fn → c.fin = none) → (6 ≤ c.fn → s.onDevice c = none) →
      s.ownHeld c = false → c.scope ≠ .surv →
      c.acks = [] → s.runCmd c = (.ok (n, m), u) → u.cmd? id = some c → exec (.commandComplete id) s = .next (u.cmdDone c n m))
    ∧ (∀ e u, c.fin = none → s.runCmd c = (.error e, u) → e.reason ≠ 0 →
      (c.fn ≤ 8 → (6 ≤ c.fn → s.onDevice c = none) → s.ownHeld c = false →
        exec (.commandComplete id) s = .next (u.cmdFail c e))
      ∧ (outsideFail c e = false → exec (.commandFailure id e) s = .next (u.cmdFail c e)))
    ∧ (∀ w, outsideFail c w = true → exec (.commandFailure id w) s = .next (s.cmdFail c w))
    ∧ (∀ k d u, c.fn ≤ 1 → c.hasBm = true → k < c.chunks → s.moveTo c (min (128 * (k + 1)) (c.total / 4)) = (.ok d, u) →
      u.bitFail d [k] = none →
      exec (.bitmapChunkSet ⟨id, k⟩) s = .next (if u.acksIn d.acks && !u.cmdPool d then (u.markChunk d k).2 else u))
    ∧ (∀ ws u, c.fn = 9 → s.onDevice c = none → c.got = none → s.poolReds c (getBits c.y 0 32 / 4) = (.ok ws, u) →
      exec (.commandComplete id) s = .next (u.setCmd { c with got := some (ws.map (fun w => (w, false))) }))
    ∧ (∀ ws u, c.fn = 9 → s.onDevice c = none → c.got = some ws → s.poolStores c 0 (ws.map (fun w => w.1)) = (.ok (), u) →
      exec (.commandComplete id) s = .next (u.cmdDone c ws.length false))
    ∧ (s.onDevice c = none ∨ c.slot = none → ∀ e, exec (.poolDeviceCompletion id e) s = .next s)
    ∧ (∀ p k, 6 ≤ c.fn → s.onDevice c = some p → c.slot = some k →
      let d := s.devs.at p PoolDev.zero
      let x := d.completion k
      (bit x 63 = false → (d.window.at k []).length = 64 → ∃ t, exec (.poolDeviceCompletion id true) s = .next t
        ∧ (t.devs.at p PoolDev.zero).completion k = 0xC000000000000000 ∧ t.mem = s.mem ∧ t.cmds = s.cmds)
      ∧ (bit x 63 = false → exec (.commandComplete id) s = .next s)
      ∧ (bit x 63 = true → bit x 62 = true →
        exec (.commandComplete id) s = .next (s.cmdFail c { reason := 22, kind := 0, va := 0, off := 0 }))
      ∧ (bit x 63 = true → bit x 62 = false → exec (.commandComplete id) s = .next (s.cmdDone c (getBits x 0 32) (bit x 61)))))
  ∧ (∀ (s : State) (c : Cmd), s.cur.id = c.hart → s.cur.live = true → s.cur.pl.group = c.group → s.groupLives c.group = true →
    c.fn ≠ 4 → c.fn ≠ 5 → s.cur.m.cp = [{ id := c.id, done := false }] → 0 < c.token → c.token < 128 →
    (∀ n m, let t := s.cmdDone c n m
      t.cur.m.cp = [] ∧ t.cur.r.getS c.token = BitVec.ofNat 64 ((if m then 2 ^ 62 else 0) + n % 2 ^ 32)
      ∧ t.cur.r.fullS c.token = true ∧ (∀ x ∈ t.cmds, x.id ≠ c.id) ∧ t.cur.m.fails = s.cur.m.fails ∧ t.mem = s.mem)
    ∧ (∀ e, let t := s.cmdFail c e
      t.cur.m.cp = [] ∧ t.cur.r.getS c.token = failStatus e ∧ t.cur.r.fullS c.token = true ∧ (∀ x ∈ t.cmds, x.id ≠ c.id)
      ∧ (c.nt = true → t.cur.m.fails = s.cur.m.fails)
      ∧ (c.nt = false → t.cur.m.fails = s.cur.m.fails ++
          [{ reason := e.reason, kind := e.kind, fn := c.fn, va := BitVec.ofNat 64 e.va, token := c.token, op := none }])
      ∧ t.mem = s.mem))

/-! ### The reservation table (R140 to R148) -/

open Sys2Proof Sys2Proof.Machine in
/-- R136, R140 to R144, R146, R148, R163, R167: MPOST takes the lowest FREE entry, or waits from the start of this clock of its core,
or ends with status 3 where no stream of its launch runs; of two posts of one core clock that of the lower wave slot stands first; MTAKE takes, of the entries posted before this clock, one of the highest priority, the
oldest among equals; MDONE completes a taken entry; MPOST_ADMIT and ENTRY_AGE_RAISE move what waits; and BCTL moves a stopped
stream on. That a poster's acquire is made as it is picked for the read of its token is the model's choice (log entry 70), and so is
how two posts of one core clock change places (log entry 92). -/
def Obligations.ReservationTable : Prop :=
  (∀ (s u : State) (f : FA), Issues (.mpost f) f.g s → s.cur.m.mx.length < 63 → s.release .clus 0xF = (true, u) → u.cur = s.cur →
    let cl := clusterOf s.cur.pl.core
    let pinned := (u.group s.cur.pl.group).pinned
    (u.streamOn cl s.cur.pl.launch = false →
      ∃ t, exec (.mpost f) s = .next t ∧ WroteS (lowS f.d) 0x8000000000000003 u t)
    ∧ (∀ n rest, u.streamOn cl s.cur.pl.launch = true → u.mayPost cl pinned = true → u.freeEntries cl = n :: rest →
      (∀ h ∈ u.waitingPosts cl, h.id = s.cur.id) → u.readmitting cl = [] →
      (∀ p, (u.core s.cur.pl.core).post = some p → p.1 ≤ s.cur.pl.slot) →
      ∃ t, exec (.mpost f) s = .next t
        ∧ (t.core s.cur.pl.core).post = some (s.cur.pl.slot, u.nextId)
        ∧ (t.entry cl n).st = .posted ∧ (t.entry cl n).payload = s.cur.r.getS (lowS f.x)
        ∧ (t.entry cl n).pri = (if pinned then 7 else min f.aop.toNat 6) ∧ (t.entry cl n).tok = lowS f.d
        ∧ (t.entry cl n).hart = s.cur.id ∧ (t.entry cl n).launch = s.cur.pl.launch ∧ (t.entry cl n).gen = (u.entry cl n).gen
        ∧ (t.entry cl n).age = (u.cluster cl).admitted ∧ (t.cluster cl).admitted = (u.cluster cl).admitted + 1
        ∧ (t.entry cl n).since = u.clock ∧ (∀ j, j < 16 → j ≠ n → t.entry cl j = u.entry cl j) ∧ (∀ c, c ≠ cl → t.cluster c = u.cluster c)
        ∧ t.cur.m.mx = s.cur.m.mx ++ [{ id := u.nextId, done := false }] ∧ Emptied [lowS f.d] [] s.cur.r t.cur.r
        ∧ Stepped u t ∧ t.mem = u.mem ∧ t.harts = u.harts)
    ∧ (∀ n rest p m, u.streamOn cl s.cur.pl.launch = true → u.mayPost cl pinned = true → u.freeEntries cl = n :: rest →
      (∀ h ∈ u.waitingPosts cl, h.id = s.cur.id) → u.readmitting cl = [] →
      (u.core s.cur.pl.core).post = some p → s.cur.pl.slot < p.1 → m < 16 → (u.entry cl m).st = .posted → (u.entry cl m).opId = p.2 →
      (∀ j, j < 16 → j ≠ m → (u.entry cl j).opId ≠ p.2) → p.2 ≠ u.nextId →
      ∃ t, exec (.mpost f) s = .next t
        ∧ (t.entry cl m).payload = s.cur.r.getS (lowS f.x) ∧ (t.entry cl m).hart = s.cur.id ∧ (t.entry cl m).age = (u.entry cl m).age
        ∧ (t.entry cl m).gen = (u.entry cl m).gen
        ∧ t.entry cl n = { u.entry cl m with age := (u.cluster cl).admitted, gen := (u.entry cl n).gen } ∧ t.mem = u.mem)
    ∧ (u.streamOn cl s.cur.pl.launch = true → u.mayPost cl pinned = false →
      ∃ t w, exec (.mpost f) s = .next t ∧ t.cur.c.pc = s.cur.c.pc ∧ t.cur.c.wait = some w ∧ t.cur.r = s.cur.r
        ∧ (s.cur.c.wait = none → w.i = .mpost f ∧ w.start = (u.core s.cur.pl.core).began) ∧ t.clusters = u.clusters))
  ∧ (∀ (s : State) (f : FA), Issues (.mpost f) f.g s → s.cur.m.mx.length < 63 → NothingToRelease .clus s →
    let cl := clusterOf s.cur.pl.core
    (s.streamOn cl s.cur.pl.launch = false →
      ∃ t, exec (.mpost f) s = .next t ∧ (lowS f.d ≠ 0 → t.cur.r.getS (lowS f.d) = 0x8000000000000003)
        ∧ t.cur.c.pc = nextPc s.cur.c.pc ∧ t.clusters = s.clusters)
    ∧ (∀ n rest, s.streamOn cl s.cur.pl.launch = true → s.mayPost cl (s.group s.cur.pl.group).pinned = true →
      s.freeEntries cl = n :: rest → (∀ h ∈ s.waitingPosts cl, h.id = s.cur.id) → s.readmitting cl = [] →
      (∀ p, (s.core s.cur.pl.core).post = some p → p.1 ≤ s.cur.pl.slot) →
      ∃ t, exec (.mpost f) s = .next t ∧ (t.entry cl n).st = .posted ∧ (t.entry cl n).payload = s.cur.r.getS (lowS f.x)
        ∧ (t.entry cl n).tok = lowS f.d ∧ t.cur.c.pc = nextPc s.cur.c.pc ∧ Emptied [lowS f.d] [] s.cur.r t.cur.r))
  ∧ (∀ (s : State) (n : Nat) (e : Entry), s.chosen = some (n, e) → (∀ j, (s.entry (clusterOf s.cur.pl.core) j).pri ≤ 7) →
    n < 16 ∧ e = s.entry (clusterOf s.cur.pl.core) n ∧ e.st = .posted ∧ e.launch = s.cur.pl.launch ∧ e.since < s.clock
    ∧ ∀ j, j < 16 → let x := s.entry (clusterOf s.cur.pl.core) j
        x.st = .posted → x.launch = s.cur.pl.launch → x.since < s.clock → x.pri < e.pri ∨ (x.pri = e.pri ∧ e.age ≤ x.age))
  ∧ (∀ (s : State) (f : FMX), Issues (.mtake f) f.g s →
    let cl := clusterOf s.cur.pl.core
    let Gives := fun (a b : Dword) (t : State) => (f.sb.toNat ≠ 0 → t.cur.r.getS f.sb.toNat = b)
      ∧ (f.sa.toNat ≠ 0 → f.sa ≠ f.sb → t.cur.r.getS f.sa.toNat = a)
      ∧ RegsKept [f.sa.toNat, f.sb.toNat] [] [] [] s.cur.r t.cur.r ∧ Stepped s t ∧ HartKept s.cur t.cur
    (∀ n e, s.chosen = some (n, e) → n < 16 → ∃ t, exec (.mtake f) s = .next t ∧ Gives e.payload (handleOf s n e) t
        ∧ t.entry cl n = { e with st := .taken } ∧ (∀ j, j ≠ n → t.entry cl j = s.entry cl j)
        ∧ { t with cur := s.cur, picked := s.picked, clusters := s.clusters } = s)
    ∧ (s.chosen = none → (f.sub.getLsbD 0 = true ∨ s.drained = true) →
        ∃ t, exec (.mtake f) s = .next t ∧ Gives 0 0 t ∧ OthersKept s t)
    ∧ (s.chosen = none → f.sub.getLsbD 0 = false → s.drained = false →
        exec (.mtake f) s = .next { s with picked := false }))
  ∧ (∀ (s : State) (f : FMX), Issues (.mdone f) f.g s →
    let cl := clusterOf s.cur.pl.core
    let status := putBits (s.cur.r.getS f.sb.toNat) 63 1 0
    (takenEntry s (s.cur.r.getS f.sa.toNat) = none →
      exec (.mdone f) s = .next (s.takeTrap { cls := 10, reason := 5 } (classFn (.mdone f)).1 (classFn (.mdone f)).2))
    ∧ (∀ n u, takenEntry s (s.cur.r.getS f.sa.toNat) = some n → s.release .clus 0xF = (true, u) → u.cur = s.cur → n < 16 →
      u.streamsDistinct →
      let e := u.entry cl n
      e.hart ≠ s.cur.id →
      ∃ t, exec (.mdone f) s = .next t ∧ (t.entry cl n).st = .free ∧ (t.entry cl n).gen = (e.gen + 1) % 256
        ∧ (∀ h ∈ u.harts, h.id = e.hart → h.live = true → u.groupLives e.group = true → 0 < e.tok → e.tok < 128 →
            ∃ k ∈ t.harts, k.id = h.id ∧ k.r.getS e.tok = status ∧ k.r.fullS e.tok = true ∧ k.m.mx = opsDone h.m.mx e.opId)
        ∧ (∀ h ∈ u.harts, h.id ≠ e.hart → h ∈ t.harts) ∧ t.cur.r = s.cur.r ∧ Stepped u t ∧ t.mem = u.mem)
    ∧ (∀ n, takenEntry s (s.cur.r.getS f.sa.toNat) = some n → NothingToRelease .clus s → s.streamsDistinct →
      (s.entry cl n).hart ≠ s.cur.id →
      ∃ t, exec (.mdone f) s = .next t ∧ (t.entry cl n).st = .free ∧ (t.entry cl n).gen = ((s.entry cl n).gen + 1) % 256
        ∧ t.cur.r = s.cur.r ∧ t.cur.c.pc = nextPc s.cur.c.pc))
  ∧ (∀ (s : State) (c : Nat), s.readmitting c = [] →
    (s.waitingPosts c = [] → exec (.mpostAdmit c) s = .next s)
    ∧ (∀ f w n rest, s.waitingPosts c = [s.cur] → s.cur.c.wait = some w → w.i = .mpost f → clusterOf s.cur.pl.core = c →
      (s.streamOn c s.cur.pl.launch = false →
        ∃ t, exec (.mpostAdmit c) s = .next t ∧ (lowS f.d ≠ 0 → t.cur.r.getS (lowS f.d) = 0x8000000000000003)
          ∧ t.cur.c.pc = nextPc s.cur.c.pc ∧ t.cur.c.wait = none ∧ t.clusters = s.clusters ∧ t.mem = s.mem)
      ∧ (s.streamOn c s.cur.pl.launch = true → s.freeEntries c = n :: rest →
        ∃ t, exec (.mpostAdmit c) s = .next t ∧ (t.entry c n).st = .posted
          ∧ (t.entry c n).payload = s.cur.r.getS (lowS f.x) ∧ t.cur.c.pc = nextPc s.cur.c.pc ∧ t.cur.c.wait = none
          ∧ Emptied [lowS f.d] [] s.cur.r t.cur.r ∧ t.mem = s.mem)))
  ∧ (∀ (s : State) (c n : Nat), n < 16 →
    let e := s.entry c n
    let iv := max (getBits (s.cluster c).mxcfg 0 16) 1 * 1024
    (e.st = .posted → e.pri < 6 → e.raised + iv ≤ s.clock →
      ∃ t, exec (.entryAgeRaise c n) s = .next t ∧ t.entry c n = { e with pri := e.pri + 1, raised := e.raised + iv }
        ∧ (∀ j, j ≠ n → t.entry c j = s.entry c j) ∧ { t with clusters := s.clusters } = s)
    ∧ (¬ (e.st = .posted ∧ e.pri < 6 ∧ e.raised + iv ≤ s.clock) → exec (.entryAgeRaise c n) s = .next s))
  ∧ (∀ (s : State) (c : Nat), s.bowlerOf c = some s.cur →
    let cls := getBits (s.cluster c).btr0 0 4
    (s.cur.bow.stopped = false → exec (.bctlResume c) s = .next s ∧ exec (.bctlSkip c) s = .next s ∧ exec (.bctlEnd c) s = .next s)
    ∧ (s.cur.bow.stopped = true →
      (∃ t, exec (.bctlResume c) s = .next t ∧ t.cur.bow = { s.cur.bow with stopped := false }
        ∧ t.cur.c.pc = (if cls = 12 ∨ cls = 13 then nextPc s.cur.c.pc else s.cur.c.pc) ∧ t.cur.r = s.cur.r ∧ OthersKept s t)
      ∧ (∃ t, exec (.bctlSkip c) s = .next t ∧ t.cur.bow = { s.cur.bow with stopped := false }
        ∧ t.cur.c.pc = nextPc s.cur.c.pc ∧ t.cur.r = s.cur.r ∧ OthersKept s t)
      ∧ (∃ t, exec (.bctlEnd c) s = .next t ∧ t.cur.live = false ∧ t.mem = s.mem)))

/-! ### The matrix engine (R149 to R163) -/

open Sys2Proof Sys2Proof.Machine in
/-- R150 to R155, R157 to R161: the descriptors and their limits, the passes, the tiles, and the registers RP and tag. A pass
adds to each element of a row the sum of its products, K-step by K-step in ascending order. A read that waits for a refresh or
a rebuild, and a pass that a save stops at a row, are no completions (log entry 71). -/
def Obligations.MatrixUnit : Prop :=
  (∀ (L : LFmt) (st : Nat) (acc : Word) (b : List LVal), dotElem L st acc [] b = (acc, 0))
  ∧ (∀ (L : LFmt) (ps : List (LVal × LVal)), (∃ p ∈ ps, p.1 = .nar ∨ p.2 = .nar) → stepSum L ps = (F32.nan, fIV))
  ∧ (∀ (s : State) (p : Pass) (i : Nat) (a : List LVal × Flags) (bs : List (List LVal × Flags)), i < 64 → bs.length ≤ 64 →
    p.td < 8 →
    let old := s.cur.bow.tile p.td
    let t := s.commitRow p i a bs
    let new := t.cur.bow.tile p.td
    (∀ j b, bs[j]? = some b → new.at i j = (dotElem (mfLog p.a.mf) (mfStep p.a.mf) (old.at i j) a.1 b.1).1)
    ∧ (∀ r j, r < 64 → j < 64 → (r ≠ i ∨ bs.length ≤ j) → new.at r j = old.at r j) ∧ new.tag = old.tag
    ∧ (∀ d, d ≠ p.td → t.cur.bow.tile d = s.cur.bow.tile d) ∧ t.cur.bow.rp = p.rp (i + 1) ∧ t.cur.r = s.cur.r ∧ t.mem = s.mem)
  ∧ (∀ (s : State) (f : FMX),
    let A := s.cur.r.getS f.sa.toNat
    let B := s.cur.r.getS f.sb.toNat
    let C := s.cur.r.getS f.sc.toNat
    let step := if f.mf = 0 then 32 else 8
    let good := fun max => canonical A = true ∧ A.toNat % 16 = 0 ∧ B.toNat % 16 = 0 ∧ getBits C 0 24 % step = 0
      ∧ getBits C 0 24 ≤ 16777184 ∧ 1 ≤ getBits C 24 13 ∧ getBits C 24 13 ≤ max ∧ getBits C 37 27 = 0
    let d : Desc := { addr := A, stride := B, k := getBits C 0 24, rows := getBits C 24 13, mf := f.mf.toNat,
                      scale := f.imm.setWidth 8 }
    let bow := s.cur.bow
    let norp := putBits bow.rp 63 1 0
    let kept := B &&& 0x8000000000F83F7F
    (Issues (.mopa f) f.g s → good 4096 → EndsBow (.mopa f) { bow with descA := some d, rp := norp } s)
    ∧ (Issues (.mopb f) f.g s → good 64 → EndsBow (.mopb f) { bow with descB := some d, rp := norp } s)
    ∧ (Issues (.mopa f) f.g s → ¬ good 4096 → exec (.mopa f) s = .next ((s.mapBow (fun b => { b with descA := none })).takeTrap
        { cls := 10, reason := 1 } (classFn (.mopa f)).1 (classFn (.mopa f)).2 0))
    ∧ (Issues (.mopb f) f.g s → ¬ good 64 → exec (.mopb f) s = .next ((s.mapBow (fun b => { b with descB := none })).takeTrap
        { cls := 10, reason := 1 } (classFn (.mopb f)).1 (classFn (.mopb f)).2 1))
    ∧ (Issues (.mzero f) f.g s → EndsBow (.mzero f)
        { bow with tiles := vset bow.tiles f.td.toNat { elems := Vector.replicate 4096 0, tag := 0x300 } } s)
    ∧ (Issues (.mprogClr f) f.g s → EndsBow (.mprogClr f) { bow with rp := norp } s)
    ∧ (Issues (.mprogSet f) f.g s → EndsBow (.mprogSet f)
        { bow with rp := if getBits B 22 2 ≥ 2 ∨ getBits B 0 7 > 64 then kept &&& ~~~ 0x8000000000000000 else kept } s)
    ∧ (Issues (.mprogRead f) f.g s → EndsS (.mprogRead f) f.sa.toNat bow.rp s)
    ∧ (Issues (.mtagtRead f) f.g s → EndsS (.mtagtRead f) f.sa.toNat ((bow.tile f.ta.toNat).tag.setWidth 64) s)
    ∧ (Issues (.mtagtSet f) f.g s → getBits B 8 4 = 3 →
      EndsBow (.mtagtSet f) { bow with tiles := vset bow.tiles f.td.toNat { bow.tile f.td.toNat with tag := 0x300 } } s)
    ∧ (Issues (.mtagtSet f) f.g s → getBits B 8 4 = 15 →
      EndsBow (.mtagtSet f) { bow with tiles := vset bow.tiles f.td.toNat { bow.tile f.td.toNat with tag := 0xF00 } } s)
    ∧ (Issues (.mtagtSet f) f.g s → getBits B 8 4 ≠ 3 → getBits B 8 4 ≠ 15 → exec (.mtagtSet f) s = .next (s.takeTrap
        { cls := 1, detail := BitVec.ofNat 64 (B.toNat % 4096) } (classFn (.mtagtSet f)).1 (classFn (.mtagtSet f)).2))
    ∧ (∀ a b u, Issues (.mma f) f.g s → bow.descA = some a → bow.descB = some b → (a.mf = 0 ↔ b.mf = 0) → a.k = b.k →
      a.rows ≤ 64 → getBits ((bow.tile f.td.toNat).tag.setWidth 64) 8 4 = 3 →
      s.runPass { a := a, base := 0, b := b, td := f.td.toNat, m := a.rows, n := b.rows, op := 0, group := 0 }
        (if bit bow.rp 63 = true ∧ getBits bow.rp 22 2 = 0 ∧ getBits bow.rp 19 3 = f.td.toNat then getBits bow.rp 0 7 else 0)
        = (none, u) →
      ∃ t, exec (.mma f) s = .next t ∧ t.cur.bow = { u.cur.bow with rp := putBits u.cur.bow.rp 63 1 0 } ∧ t.cur.r = u.cur.r
        ∧ Stepped u t ∧ t.mem = u.mem)
    ∧ (Issues (.mma f) f.g s → bow.descA = none → exec (.mma f) s = .next (s.takeTrap { cls := 10, reason := 2 }
        (classFn (.mma f)).1 (classFn (.mma f)).2 0))
    ∧ (∀ n a b l u, Issues (.mmag f) f.g s → takenEntry s A = some n → descPair s = .ok (a, b) →
      let e := s.entry (clusterOf s.cur.pl.core) n
      let g := s.group e.group
      s.groupLives e.group = true → B.toNat % 32 = 0 → C.toNat ≤ 64 → B.toNat + 32 * C.toNat ≤ g.scratchSize →
      mgroups g B.toNat (List.range C.toNat) = .ok l → (l.map (fun x => x.rows)).sum ≤ a.rows →
      (∀ x ∈ l, x.rows ≠ 0 → getBits ((bow.tile x.tile).tag.setWidth 64) 8 4 = 3) →
      s.runGroups a b (resumePoint bow.rp).1 (resumePoint bow.rp).2 (placeGroups l) = (none, u) →
      ∃ t, exec (.mmag f) s = .next t ∧ t.cur.bow = { u.cur.bow with rp := putBits u.cur.bow.rp 63 1 0 } ∧ t.cur.r = u.cur.r
        ∧ Stepped u t ∧ t.mem = u.mem)
    ∧ (∀ rows cols l bad u, Issues (.mldc f) f.g s → shapeOf f s = some (A, B, rows, cols) →
      s.tileRows A B cols (if f.mf = 0 then 1 else if f.mf = 4 then 4 else 2) (List.range rows) = (.ok (l, bad), u) →
      ∃ t, exec (.mldc f) s = .next t ∧ (t.cur.bow.tile f.td.toNat).tag = (if bad then 0xF00 else 0x300)
        ∧ (∀ i j cs c, i < 64 → j < 64 → l[i]? = some cs → cs[j]? = some c →
            (t.cur.bow.tile f.td.toNat).at i j = toF32 f.mf.toNat c)
        ∧ (∀ d, d ≠ f.td.toNat → t.cur.bow.tile d = u.cur.bow.tile d) ∧ t.cur.r = u.cur.r ∧ Stepped u t ∧ t.mem = u.mem)
    ∧ (∀ a b, Issues (.mma f) f.g s → bow.descA = some a → bow.descB = some b → (a.mf = 0 ↔ b.mf = 0) → a.k = 0 → b.k = 0 →
      a.rows ≤ 64 → a.addr.toNat % 16 = 0 → a.stride.toNat % 16 = 0 → b.addr.toNat % 16 = 0 → b.stride.toNat % 16 = 0 →
      getBits ((bow.tile f.td.toNat).tag.setWidth 64) 8 4 = 3 → s.preempted = false →
      ∃ t, exec (.mma f) s = .next t ∧ t.cur.bow.tiles = bow.tiles ∧ bit t.cur.bow.rp 63 = false ∧ t.cur.r = s.cur.r
        ∧ Stepped s t ∧ t.mem = s.mem)
    ∧ (∀ n a b, Issues (.mmag f) f.g s → takenEntry s A = some n → descPair s = .ok (a, b) → C = 0 →
      s.groupLives (s.entry (clusterOf s.cur.pl.core) n).group = true → B.toNat % 32 = 0 →
      B.toNat ≤ (s.group (s.entry (clusterOf s.cur.pl.core) n).group).scratchSize → EndsBow (.mmag f) { bow with rp := norp } s)
    ∧ (Issues (.mstf f) f.g s → TileStored (.mstf f) f (if f.mf = 0 then 1 else if f.mf = 4 then 4 else 2)
        (fun c => if f.mf = 4 then .fixed c 0 else toLin (mfLin f.mf.toNat) (fdecode F32 c) f.rm.toNat) s)
    ∧ (Issues (.mstl f) f.g s → TileStored (.mstl f) f (if f.mf = 0 then 1 else if f.mf = 4 then 4 else 2)
        (fun c => linToLog (mfLog f.mf.toNat) (fdecode F32 c) (f.imm.setWidth 8 : BitVec 8).toInt f.rm.toNat) s))

/-! ### The supervisor's forms (R314, R316, R333, R334, R357 to R362) -/

open Sys2Proof Sys2Proof.Machine in
/-- R314, R316, R333, R334, R353, R357 to R362: ending a workgroup or a gang, asking to be saved, the shootdowns, reading and
popping records, halting, lifting and retiring, and posting an event. -/
def Obligations.SystemForms : Prop :=
  ∀ (s : State) (f : FX), s.cur.role = .warp →
    let k := s.cur.pl.group
    let g := s.group k
    let inh := tsInh s.cur.t.tstat
    let d := f.sd.toNat
    (Issues (.wgend f) f.g s → g.seed = true →
      ∃ t, exec (.wgend f) s = .next t ∧ (t.group k).phase = .ended ∧ t.warpsOf k = [] ∧ t.mem = s.mem
        ∧ (t.group k).halt = none
        ∧ (t.launch g.launch).counter = (s.launch g.launch).counter - (s.warpsOf k).length
        ∧ (f.sub.getLsbD 0 = false → t.fe = s.fe)
        ∧ (f.sub.getLsbD 0 = true → ∃ e, t.fe.raised = s.fe.raised ++ [e] ∧ e.at_ = s.clock ∧ e.e.type = 4
            ∧ e.e.code = BitVec.ofNat 32 (0x80000000 + (if inh then getBits s.cur.t.tstat 0 4 else 12))
            ∧ e.e.detail = (if inh then s.cur.t.tpc else s.cur.c.pc)))
    ∧ (Issues (.wgend f) f.g s → g.seed = false → (s.gang g.gang).groups = [k] →
      ∃ t, exec (.wgend f) s = .next t ∧ (t.group k).phase = .ended ∧ t.warpsOf k = [] ∧ t.mem = s.mem)
    ∧ (Issues (.gangend f) f.g s →
      ∃ t, exec (.gangend f) s = .next t ∧ t.mem = s.mem ∧ t.picked = false
        ∧ (∀ x ∈ (s.gang g.gang).groups, s.groupLives x = true → (t.group x).phase = .ended ∧ t.warpsOf x = [])
        ∧ (f.sub.getLsbD 0 = false → t.fe = s.fe))
    ∧ (Issues (.swapb f) f.g s → s.gangIn g.gang .resident = [k] → g.phase = .resident →
      (s.shadowFree [k] = true → ∃ t, exec (.swapb f) s = .next t ∧ (t.group k).phase = .saving
        ∧ (t.group k).swapDone = false ∧ (t.gang g.gang).saveAsked = false ∧ t.cur.c.pc = nextPc s.cur.c.pc ∧ t.cur.r = s.cur.r
        ∧ (t.core g.core).busyUntil = (s.core g.core).cclk + 49 ∧ t.mem = s.mem)
      ∧ (s.shadowFree [k] = false → ∃ t, exec (.swapb f) s = .next t ∧ (t.group k).phase = .resident
        ∧ (t.gang g.gang).saveAsked = true ∧ t.cur.c.pc = nextPc s.cur.c.pc ∧ t.cur.c.wait ≠ none ∧ t.cur.r = s.cur.r
        ∧ t.mem = s.mem))
    ∧ (let a := s.cur.r.getS f.sa.toNat
       let n := s.cur.r.getS f.sb.toNat
       let whole := f.imm.getLsbD 16
       let lo := a.toNat / 65536 * 65536
       let hi := if n = 0 then lo else a.toNat + n.toNat
       let inside := fun (base size : Nat) => whole = true ∨ (base < hi ∧ lo < base + size)
       (Issues (.xlatinv f) f.g s → whole = false → canonical a = false → exec (.xlatinv f) s = .next
          (s.takeTrap { cls := 0, reason := 2 } (classFn (.xlatinv f)).1 (classFn (.xlatinv f)).2))
       ∧ (Issues (.purgev f) f.g s → whole = false → canonical a = false → exec (.purgev f) s = .next
          (s.takeTrap { cls := 0, reason := 2 } (classFn (.purgev f)).1 (classFn (.purgev f)).2))
       ∧ (Issues (.xlatinv f) f.g s → (whole = true ∨ canonical a = true) →
          ∃ t, exec (.xlatinv f) s = .next t ∧ (∀ e, e ∈ t.tlb ↔ e ∈ s.tlb
              ∧ ¬ ((f.imm.getLsbD 17 = true ∨ e.glob = true ∨ e.asid = f.imm.setWidth 16) ∧ inside e.base e.size))
            ∧ t.cur.r = s.cur.r ∧ Stepped s t ∧ HartKept s.cur t.cur
            ∧ { t with cur := s.cur, picked := s.picked, tlb := s.tlb } = s)
       ∧ (Issues (.purgev f) f.g s → (whole = true ∨ canonical a = true) →
          (∃ t, exec (.purgev f) s = .next t ∧ t.cur.r = s.cur.r ∧ t.cur.c.pc = nextPc s.cur.c.pc ∧ t.harts = s.harts
            ∧ t.hostMem = s.hostMem ∧ t.groups = s.groups)
          ∧ (∀ c x, s.copies = [c] → c.node = { level := 1, idx := c.node.idx } → c.st = .m → c.val = some x → c.bad = false →
              c.key.pw.kind = 0 → memWf s.mem = true → (f.imm.getLsbD 17 = true ∨ c.key.asid = (f.imm.setWidth 16 : BitVec 16).toNat) →
              inside c.key.va 4 →
              ∃ t, exec (.purgev f) s = .next t ∧ memWord t.mem (pwKey c.key.pw) = x
                ∧ ∀ y ∈ t.copies, y.node.level ≤ 1 → y.st = .i)))
    ∧ (Issues (.sfqpop f) f.g s → f.sub.getLsbD 0 = false → d + 3 < 128 →
      ∃ t, exec (.sfqpop f) s = .next t ∧ t.cur.m.sfrecs = s.cur.m.sfrecs.drop 1
        ∧ (∀ j, j < 4 → d + j ≠ 0 → t.cur.r.getS (d + j) = (match s.cur.m.sfrecs with
            | r :: _ => (r.words[j]?).getD 0
            | [] => 0))
        ∧ RegsKept (upFrom d 4) [] [] [] s.cur.r t.cur.r ∧ Stepped s t ∧ t.mem = s.mem)
    ∧ (Issues (.siderd f) f.g s → f.sub.getLsbD 0 = false → EndsS (.siderd f) d (s.cur.t.side.word (f.imm.toNat % 8)) s)
    ∧ (Issues (.haltcHalt f) f.g s → g.halt = none →
      ∃ t, exec (.haltcHalt f) s = .next t ∧ (t.group k).halt = some s.cur.id
        ∧ bit t.cur.t.tstat 19 = true
        ∧ (∀ h ∈ t.harts, h.role = .warp → h.live = true → h.pl.group = k → ∃ n, n ≤ 16 ∧ h.sch.skid = some n)
        ∧ (d ≠ 0 → t.cur.r.getS d = (s.haltGroup.setLead true).haltedMask k)
        ∧ RegsKept [d] [] [] [] s.cur.r t.cur.r ∧ Stepped s t ∧ t.mem = s.mem)
    ∧ (Issues (.haltcHalt f) f.g s → g.halt ≠ none → EndsS (.haltcHalt f) d (s.haltedMask k) s)
    ∧ (Issues (.haltcLift f) f.g s → g.halt = some s.cur.id →
      ∃ t, exec (.haltcLift f) s = .next t ∧ (t.group k).halt = none ∧ bit t.cur.t.tstat 19 = false
        ∧ (∀ h ∈ t.harts, h.role = .warp → h.pl.group = k → tskHalted h.t.tskid = false ∧ h.sch.skid = none)
        ∧ (d ≠ 0 → t.cur.r.getS d = ((s.lift k).setLead false).haltedMask k)
        ∧ RegsKept [d] [] [] [] s.cur.r t.cur.r ∧ t.mem = s.mem)
    ∧ (Issues (.haltcLift f) f.g s → g.halt ≠ some s.cur.id → EndsS (.haltcLift f) d (s.haltedMask k) s)
    ∧ (Issues (.haltcRetire f) f.g s → (∀ h ∈ s.warpsOf k, h.pl.slot = (s.cur.r.getS f.sa.toNat).toNat % 32 →
        tskHalted h.t.tskid = false) → EndsS (.haltcRetire f) d (s.haltedMask k) s)
    ∧ (∀ h, Issues (.haltcRetire f) f.g s → s.harts = [h] → h.id ≠ s.cur.id → h.role = .warp → h.live = true → h.pl.group = k →
      h.pl.slot = (s.cur.r.getS f.sa.toNat).toNat % 32 → tskHalted h.t.tskid = true → tskHalted s.cur.t.tskid = false →
      h.m.stores = [] → h.m.sfrecs = [] → g.seed = true → g.bcount = none → g.halt = some s.cur.id → s.cur.live = true →
      ∃ t, exec (.haltcRetire f) s = .next t ∧ (∀ x ∈ t.harts, x.live = false)
        ∧ (t.launch h.pl.launch).counter = (s.launch h.pl.launch).counter - 1 ∧ (d ≠ 0 → t.cur.r.getS d = 0) ∧ t.mem = s.mem)
    ∧ (Issues (.evpost f) f.g s →
      ∃ t e w, exec (.evpost f) s = .next t ∧ t.fe = { s.fe with raised := s.fe.raised ++ [e] } ∧ e.e.type = 4
        ∧ e.e.code = (s.cur.r.getS f.sa.toNat).setWidth 32 &&& 0x7FFFFFFF ∧ e.e.detail = s.cur.r.getS f.sb.toNat
        ∧ e.e.handle = (s.launch s.cur.pl.launch).handle ∧ e.hart = some s.cur.id ∧ e.at_ = s.clock
        ∧ t.cur.c.pc = nextPc s.cur.c.pc ∧ t.cur.c.issued = s.cur.c.issued + 1 ∧ t.cur.c.wait = some w ∧ w.i = .evpost f
        ∧ t.cur.r = s.cur.r ∧ t.picked = false ∧ HartKept s.cur t.cur
        ∧ { t with cur := s.cur, picked := s.picked, fe := s.fe } = s)

/-! ### The coherence tree, the home slices and the fabric (R23, R24, R170 to R173, R181 to R183, R191, R192, R212, R244 to R250) -/

open Sys2Proof Sys2Proof.Machine in
/-- R173, R181, R188, R192: an issuer reads back what it has owned and written; a write at system scope reaches the home's
memory and nothing else of it. R23, R24, R181, R191, R192, R212: a push, an invalidation, an eviction, and what reaches a home
slice from outside: a peer's reads, stores and atomics, and the host's accesses. A request that finds a word which is being
resolved after the loss of a die or rebuilt, sharers to be asked first, or a place in this clock's order already passed, waits.
That outside parties write memory which the package does not hold is the model's form of its surroundings (log entry 17); the waits
for a rebuild and for a place already passed in the clock's order are the model's readings (log entry 75), and so is that a host
write asks no sharers first (log entry 76). -/
def Obligations.Coherence : Prop :=
  (∀ (s : State) (i : Issuer) (top : Nat) (k : WKey) (f : Word → Word) (whole : Bool), i.lvl ≤ 1 → i.lvl ≤ top → memWf s.mem = true →
    let r := s.own i top k f whole
    (r.2.rd i k).1 = (f r.1.1, r.1.2 && !whole) ∧ r.2.cur = s.cur
    ∧ (top = 6 → i.core < 512 → memWord r.2.mem (pwKey k.pw) = f r.1.1
        ∧ ∀ a, a < pwKey k.pw ∨ pwKey k.pw + 4 ≤ a → memGet r.2.mem a = memGet s.mem a)
    ∧ (top ≤ 5 → r.2.mem = s.mem))
  ∧ (∀ (s : State) (n : Node) (w : WKey),
    ((s.copyAt n w).st ≠ .w → exec (.push n w) s = .next s)
    ∧ ((s.copyAt n w).st = .w → n.level ≤ 2 → ∃ t, exec (.push n w) s = .next t ∧ (t.copyAt n w).st ≠ .w ∧ t.mem = s.mem
        ∧ t.cur = s.cur ∧ t.harts = s.harts)
    ∧ ((s.copyAt n w).st = .i → exec (.eviction n w) s = .next s)
    ∧ ((s.copyAt n w).st ≠ .i → exec (.eviction n w) s = exec (.inv n w) s)
    ∧ (n.level ≤ 1 → n.level = 0 ∨ s.poisonWaits w.pw = false → ∃ t, exec (.inv n w) s = .next t ∧ (t.copyAt n w).st = .i
        ∧ t.cur = s.cur ∧ t.harts = s.harts ∧ t.groups = s.groups)
    ∧ (∀ x, n.level = 0 → (s.copyAt n w).st = .m → (s.copyAt n w).val = some x →
        ∃ t, exec (.inv n w) s = .next t ∧ (t.copyAt (chainNode n.idx 1) w).val = some x ∧ t.mem = s.mem))
  ∧ (∀ (s : State) (pkg port off : Nat), let w := hbmWord off
    (s.peerMay pkg off 4 = false → exec (.rd (.peer pkg port) off) s = .next s)
    ∧ (s.peerMay pkg off 4 = true → s.deadHolds w = false → s.poisonWaits w = false →
      ∃ t, exec (.rd (.peer pkg port) off) s = .next t ∧ (t.sharers.at (off / 128) 0).getLsbD pkg = true
        ∧ t.out = s.out ++ [.data pkg w.off (s.homeWord w).1 (s.homeWord w).2] ∧ t.mem = s.mem ∧ t.cur = s.cur
        ∧ t.harts = s.harts)
    ∧ (∀ bytes, s.peerMay pkg off bytes.length = false → exec (.own (.peer pkg port off) bytes) s = .next s)
    ∧ (∀ bytes, s.peerMay pkg off bytes.length = true → memWf s.mem = true →
      s.homeWriteWaits (fabricRank port) true (hbmWords off bytes.length) = false →
      ∃ t, exec (.own (.peer pkg port off) bytes) s = .next t ∧ memRead t.mem (hbmKey off) bytes.length = bytes
        ∧ (∀ c ∈ t.copies, c.key.pw ∈ hbmWords off bytes.length → c.st = .i)
        ∧ (∀ a, a < hbmKey (off / 4 * 4) ∨ hbmKey ((off + bytes.length + 3) / 4 * 4) ≤ a → memGet t.mem a = memGet s.mem a)
        ∧ t.cur = s.cur ∧ t.harts = s.harts ∧ t.groups = s.groups)
    ∧ (∀ bytes, s.peerMay pkg off bytes.length = true → hbmWords off bytes.length = [w] → s.sharersOf w ≠ [] →
      ∃ t, exec (.own (.peer pkg port off) bytes) s = .next t ∧ t.mem = s.mem ∧ t.copies = s.copies ∧ t.cur = s.cur
        ∧ ∀ p ∈ s.sharersOf w, ∃ r ∈ t.fabric, r.peer = p ∧ r.what = .drop (w.off / 128 * 128)))
  ∧ (∀ (s : State) (r : AtomReq) (w : Word), let pw := hbmWord r.off
    (s.peerMay r.pkg r.off 8 = false → exec (.remoteAtomic r) s = .next s)
    ∧ ((s.peer r.pkg).departed = true → exec (.remoteAtomic r) s = .next s)
    ∧ (r.off % (if r.wide then 8 else 4) ≠ 0 → exec (.remoteAtomic r) s = .next s)
    ∧ (s.peerMay r.pkg r.off 8 = true → r.wide = false → r.off % 4 = 0 →
      (s.deadHolds pw = true ∨ s.homeLate (fabricRank r.port) pw = true ∨ s.sharersOf pw ≠ []) →
      ∃ t, exec (.remoteAtomic r) s = .next t ∧ t.mem = s.mem ∧ t.copies = s.copies ∧ t.cur = s.cur ∧ t.harts = s.harts)
    ∧ (s.peerMay r.pkg r.off 8 = true → r.wide = false → r.off % 4 = 0 → s.deadHolds pw = false →
      s.homeLate (fabricRank r.port) pw = false → s.sharersOf pw = [] → s.poisonWaits pw = false →
      s.homeBase 0 pw = (w, false) → r.op < 15 → memWf s.mem = true →
      ∃ t, exec (.remoteAtomic r) s = .next t
        ∧ memWord t.mem (pwKey pw) = BitVec.ofNat 32 (atomNew (r.op % 8) 32 (decide (8 ≤ r.op)) w.toNat r.x.toNat)
        ∧ t.out.getLast? = some (.reply r.pkg (w.setWidth 64) false)
        ∧ (∀ a, a < pwKey pw ∨ pwKey pw + 4 ≤ a → memGet t.mem a = memGet s.mem a) ∧ t.cur = s.cur ∧ t.harts = s.harts))
  ∧ (∀ (s : State) (port pa : Nat) (bytes : List Byte), pa + bytes.length ≤ 2 ^ 39 → memWf s.mem = true →
    let ws := hbmWords pa bytes.length
    (s.homeWriteWaits (hostRank port) false ws = false →
      ∃ t, exec (.hostRdmaWrite (.hbm port pa) bytes) s = .next t ∧ memRead t.mem (hbmKey pa) bytes.length = bytes
        ∧ (∀ a, a < hbmKey (pa / 4 * 4) ∨ hbmKey ((pa + bytes.length + 3) / 4 * 4) ≤ a → memGet t.mem a = memGet s.mem a)
        ∧ t.cur = s.cur ∧ t.harts = s.harts ∧ t.groups = s.groups)
    ∧ (s.homeWriteWaits (hostRank port) false ws = true →
      ∃ t, exec (.hostRdmaWrite (.hbm port pa) bytes) s = .next t ∧ t.mem = s.mem ∧ t.copies = s.copies ∧ t.cur = s.cur)
    ∧ (s.homeReadWaits ws = false → exec (.hostRdmaRead pa bytes.length) s =
        .next { s with out := s.out ++ [.hostRead (s.homeBytes 0 0 pa bytes.length) (ws.any (fun w => (s.homeWord w).2))] }))
  ∧ (∀ (s : State) (bytes : List Byte),
    (∀ a, exec (.hostRdmaWrite (.host a) bytes) s = .next { s with hostMem := memWrite s.hostMem a bytes })
    ∧ (∀ slot part, s.powered = false → exec (.hostRdmaWrite (.flash slot part) bytes) s = .next s)
    ∧ (∀ off, off % 4 = 0 → bytes.length = 4 → off + 4 ≤ 2 ^ 45 → memWf s.mem = true →
      ∃ t, exec (.hostRdmaWrite (.pool off) bytes) s = .next t
        ∧ memRead t.mem (pwKey { kind := 2, peer := 0, off := off }) 4 = bytes ∧ t.copies = s.copies ∧ t.cur = s.cur))
  ∧ (∀ (s : State) (home off : Nat),
    (∃ t, exec (.remoteInvalidation (.drop home) off) s = .next t
      ∧ (∀ c ∈ t.copies, sameLine c.key.pw { kind := 1, peer := home, off := off } = false)
      ∧ t.out.getLast? = some (.dropped home off) ∧ t.cur = s.cur ∧ t.harts = s.harts)
    ∧ (home < 16 → (∃ r ∈ s.fabric, r.peer = home ∧ r.what = .drop (off / 128 * 128)) →
      ∃ t, exec (.remoteInvalidation (.dropped home) off) s = .next t
        ∧ (t.sharers.at (off / 128) 0).getLsbD home = false
        ∧ (∀ r ∈ t.fabric, ¬ (r.peer = home ∧ r.what = .drop (off / 128 * 128))) ∧ t.mem = s.mem ∧ t.cur = s.cur)
    ∧ ((∀ r ∈ s.fabric, ¬ (r.peer = home ∧ r.what = .drop (off / 128 * 128))) →
      exec (.remoteInvalidation (.dropped home) off) s = .next s))

open Sys2Proof Sys2Proof.Machine in
/-- R191, R232, R241, R244 to R250, R348, R349: requests on the fabric with their attempts, departures and rejoining, packets
and the windows of endpoints, requests that a target holds and that are sent again, and the extents of the pool. The model's own
choices here: where a pod has no detour the attempts go over the direct link (log entry 76; R244 gives that only for a pod of two
packages), a request whose access has ended is given up (log entry 81), and a ring entry whose owner or token cannot be read for
poison fails its publisher (log entry 83). -/
def Obligations.Fabric : Prop :=
  (∀ (s : State) (q : Nat) (r : FabReq), s.fabric.find? (fun x => x.id == q) = some r →
    (s.clock < r.sentAt + 32768 → exec (.fabricTimeout q) s = .next s)
    ∧ (r.held = true → exec (.fabricTimeout q) s = .next s)
    ∧ (r.sentAt + 32768 ≤ s.clock → r.held = false → s.stillAsks r = false →
      exec (.fabricTimeout q) s = .next { s with fabric := s.fabric.filter (fun x => x.id != r.id) })
    ∧ (r.sentAt + 32768 ≤ s.clock → r.failed < 3 → r.held = false → s.stillAsks r = true →
      let via := s.detourOf r.peer
      exec (.fabricTimeout q) s = .next { s with
        fabric := s.fabric.map (fun x => if x.id = r.id then { r with failed := r.failed + 1, via := via, sentAt := s.clock } else x)
        out := s.out ++ [.detour r.id (via.getD r.peer)] })
    ∧ (r.sentAt + 32768 ≤ s.clock → 3 ≤ r.failed → r.held = false → s.stillAsks r = true → r.peer < 16 →
      (s.peer r.peer).departed = false →
      ∃ t e, exec (.fabricTimeout q) s = .next t ∧ (t.peer r.peer).departed = true
        ∧ t.fe.raised = s.fe.raised ++ [e] ∧ e.e.type = 4 ∧ e.e.code = 0x80000100 ∧ e.e.detail = BitVec.ofNat 64 r.peer
        ∧ (∀ v ∈ t.sharers, v.2.getLsbD r.peer = false) ∧ (∀ d ∈ t.parity.sent, d.id.holder ≠ r.peer)
        ∧ (∀ x ∈ t.fabric, x.peer ≠ r.peer) ∧ t.mem = s.mem))
  ∧ (∀ (s : State) (q : Nat), s.fabric.find? (fun x => x.id == q) = none → exec (.fabricTimeout q) s = .next s)
  ∧ (∀ (s : State) (p v : Nat), s.detourOf p = some v →
    v ≠ p ∧ v ≠ s.pkg.toNat ∧ v ≤ s.podn.toNat ∧ s.linkOk s.pkg.toNat v = true ∧ s.linkOk v p = true
    ∧ ∀ u, u < v → u ≠ p → u ≠ s.pkg.toNat → s.linkOk s.pkg.toNat u = false ∨ s.linkOk u p = false)
  ∧ (∀ (s : State) (a b : Nat),
    (a = b ∨ s.podn.toNat < a ∨ s.podn.toNat < b ∨ s.linkOk a b = false → exec (.linkFailure ⟨a, b⟩) s = .next s)
    ∧ (a ≠ b → a ≤ s.podn.toNat → b ≤ s.podn.toNat → s.linkOk a b = true →
      (s.fabric = [] → ∃ t, exec (.linkFailure ⟨a, b⟩) s = .next t ∧ t.linkOk a b = false
        ∧ { t with peers := s.peers, downLinks := s.downLinks } = s)
      ∧ (∀ r, s.fabric = [r] → s.overLink r a b = true → r.failed < 3 → r.held = false → s.stillAsks r = true →
        ∃ t r', exec (.linkFailure ⟨a, b⟩) s = .next t ∧ t.linkOk a b = false ∧ t.fabric = [r'] ∧ r'.failed = r.failed + 1
          ∧ r'.peer = r.peer ∧ r'.what = r.what ∧ t.mem = s.mem)))
  ∧ (∀ (s : State) (p : Nat), p < 16 →
    let x := s.peer p
    (x.departed = false → exec (.peerRejoin p true) s = .next s)
    ∧ (x.departed = true → ∃ t e, exec (.peerRejoin p true) s = .next t ∧ (t.peer p).departed = false
      ∧ t.fe.raised = s.fe.raised ++ [e] ∧ e.e.code = 0x80000101 ∧ e.e.detail = BitVec.ofNat 64 p ∧ t.mem = s.mem)
    ∧ (∃ t, exec (.peerRejoin p false) s = .next t ∧ t.out.getLast? = some (.rejoin p))
    ∧ ((∀ h ∈ s.allHarts, h.m.returning = [] ∧ h.m.stores = []) → s.cmds = [] →
      ∃ t, exec (.peerRejoin p false) s = .next t ∧ (∀ c ∈ t.copies, ¬ (c.key.pw.kind = 1 ∧ c.key.pw.peer = p))
        ∧ t.peer p = x ∧ (∀ r ∈ t.fabric, r.peer ≠ p) ∧ t.mem = s.mem))
  ∧ (∀ (s : State) (port base size : Nat),
    (port ≤ 3 → base + size ≤ 2 ^ 43 → (∀ e ∈ s.extents, ¬ (e.port = port ∧ e.base = base)) →
      exec (.extentAdd port base size) s = .next { s with extents := s.extents ++ [{ port := port, base := base, size := size }] })
    ∧ ∃ t, exec (.extentRelease port base) s = .next t ∧ { t with extents := s.extents } = s
      ∧ ∀ e, e ∈ t.extents ↔ e ∈ s.extents ∧ ¬ (e.port = port ∧ e.base = base))
  ∧ (∀ (s : State) (p : Packet), handlePkg p.handle = s.pkg.toNat → (s.peer p.src).departed = false →
    (∀ u, s.deliver p = (.done, u) → exec (.xferPacketArrival (.data p)) s = .next { u with out := u.out ++ [.ack p] })
    ∧ (∀ u a b c, s.deliver p = (.refused a b c, u) →
        exec (.xferPacketArrival (.data p)) s = .next { u with out := u.out ++ [.refuse p a b c] })
    ∧ (∀ g, s.holderOf (handleCore p.handle) (handleSlot p.handle) = some g → (s.group g).phase ≠ .resident →
        exec (.xferPacketArrival (.data p)) s = .next { s with out := s.out ++ [.hold p] })
    ∧ (∀ u own pw, s.deliver p = (.waits own pw, u) → u = s ∧ exec (.xferPacketArrival (.data p)) s = .next (s.askWord none own pw))
    ∧ (∀ u own pw len, s.fetchWindow p.handle p.off len = (.error (.waits own pw), u) →
        exec (.xgetReadRequest (.ask p) len) s = .next (u.askWord none own pw))
    ∧ (∀ u len, s.fetchWindow p.handle p.off len = (.error .held, u) →
        exec (.xgetReadRequest (.ask p) len) s = .next { u with out := u.out ++ [.hold p] })
    ∧ (∀ g, s.holderOf (handleCore p.handle) (handleSlot p.handle) = some g → (s.group g).phase = .resident →
        packetRefused (s.group g) p.handle true p.off p.data.length = false → winMem ((s.group g).win (handleNum p.handle)) = false →
        let base := winBase ((s.group g).win (handleNum p.handle)) + p.off
        let cnt := ctlCnt ((s.group g).ctl (handleNum p.handle))
        base + p.data.length ≤ (s.group g).scratchSize → base % 4 = 0 → s.memoryWf → (cnt + 8 ≤ base ∨ base + p.data.length ≤ cnt) →
        cnt ∉ (s.group g).scratchBad → cnt + 4 ∉ (s.group g).scratchBad →
        ∃ t, exec (.xferPacketArrival (.data p)) s = .next t ∧ memRead (t.group g).scratch base p.data.length = p.data
          ∧ memNat (t.group g).scratch cnt 8 = (memNat (s.group g).scratch cnt 8 + p.data.length) % 2 ^ 64
          ∧ (∀ a, (a < base ∨ base + p.data.length ≤ a) → (a < cnt ∨ cnt + 8 ≤ a) →
              memGet (t.group g).scratch a = memGet (s.group g).scratch a)
          ∧ (∀ o ∈ p.bads, o % 4 = 0 → o < p.data.length → (base + o < cnt ∨ cnt + 8 ≤ base + o) →
              base + o ∈ (t.group g).scratchBad)
          ∧ t.mem = s.mem ∧ t.cur = s.cur)
    ∧ (∀ ws u len, s.fetchWindow p.handle p.off len = (.ok ws, u) → exec (.xgetReadRequest (.ask p) len) s =
        .next { u with out := u.out ++ [.readReply p ((ws.flatMap (fun w => leBytes 4 w.1.toNat)).take len)
          (((List.range ws.length).filter (fun j => (ws[j]?).any (fun w => w.2))).map (fun j => 4 * j))] })
    ∧ (∀ a b c u len, s.fetchWindow p.handle p.off len = (.error (.refused a b c), u) →
        exec (.xgetReadRequest (.ask p) len) s = .next { u with out := u.out ++ [.refuse p a b c] }))
  ∧ (∀ (s : State) (p : Packet) (len : Nat), handlePkg p.handle ≠ s.pkg.toNat →
    exec (.xferPacketArrival (.data p)) s = .next s ∧ exec (.xgetReadRequest (.ask p) len) s = .next s)
  ∧ (∀ (s : State) (id : Nat), s.cmd? id = none → (∀ off, exec (.xferPacketArrival (.done id off)) s = .next s)
    ∧ (∀ off a b c, exec (.xferPacketArrival (.refused id off a b c)) s = .next s)
    ∧ (∀ off, exec (.xferPacketArrival (.held id off)) s = .next s ∧ exec (.xgetReadRequest (.held off) id) s = .next s)
    ∧ (∀ off data bads, exec (.xgetReadRequest (.reply off data bads) id) s = .next s)
    ∧ (∀ off a b c, exec (.xgetReadRequest (.refused off a b c) id) s = .next s))
  ∧ (∀ (s : State) (id off : Nat) (c : Cmd), s.cmds = [c] → c.id = id →
    ((∃ r ∈ s.fabric, r.peer = c.target ∧ r.what = .xfer id off) →
      (∃ t, exec (.xferPacketArrival (.done id off)) s = .next t ∧ t.cmds = [c] ∧ t.mem = s.mem
        ∧ ∀ r, r ∈ t.fabric ↔ r ∈ s.fabric ∧ ¬ (r.peer = c.target ∧ r.what = .xfer id off))
      ∧ ∀ a b v, ∃ t, exec (.xferPacketArrival (.refused id off a b v)) s = .next t ∧ t.mem = s.mem
        ∧ t.cmds = [{ c with refused := some { reason := a, kind := b, va := v, off := off - c.bm } }])
    ∧ ((∃ r ∈ s.fabric, r.peer = c.target ∧ r.what = .xget id off) →
      (∀ data bads, (off, data.length) ∈ packetsOf c.bm c.xlen →
        let ws := replyWords data bads
        (∀ u, s.storeLocal c (off - c.bm) ws = (.ok (), u) → exec (.xgetReadRequest (.reply off data bads) id) s = .next
          ((u.answered c.target (.xget id off)).setCmd { c with fin := some (0, c.fin == some (0, true) || ws.any (fun w => w.2)) }))
        ∧ (∀ e u, s.storeLocal c (off - c.bm) ws = (.error e, u) → exec (.xgetReadRequest (.reply off data bads) id) s = .next
          (if e.reason = 0 then s.cmdAsk c e else (u.answered c.target (.xget id off)).setCmd { c with refused := some e })))
      ∧ (∀ data bads, (off, data.length) ∉ packetsOf c.bm c.xlen → exec (.xgetReadRequest (.reply off data bads) id) s = .next s)
      ∧ ∀ a b v, ∃ t, exec (.xgetReadRequest (.refused off a b v) id) s = .next t
        ∧ t.cmds = [{ c with refused := some { reason := a, kind := b, va := v, off := off - c.bm } }] ∧ t.mem = s.mem)
    ∧ (∀ what, (what = .xfer id off ∧ exec (.xferPacketArrival (.held id off)) s = .next (s.holdCmd id what))
        ∨ (what = .xget id off ∧ exec (.xgetReadRequest (.held off) id) s = .next (s.holdCmd id what))
        ∨ (what ≠ .xfer id off ∧ what ≠ .xget id off))
    ∧ ∀ what, (∀ r, r ∈ (s.holdCmd id what).fabric ↔ ∃ x ∈ s.fabric, r = if x.peer = c.target ∧ x.what = what
          then { x with held := true, failed := 0, sentAt := s.clock } else x)
        ∧ { s.holdCmd id what with fabric := s.fabric } = s)
  ∧ (∀ (s : State) (q : Nat), s.fabric.find? (fun x => x.id == q) = none → exec (.packetResend q) s = .next s)
  ∧ (∀ (s : State) (q : Nat) (r : FabReq), s.fabric.find? (fun x => x.id == q) = some r →
    (r.held = false ∨ s.clock < r.sentAt + 4096 → exec (.packetResend q) s = .next s)
    ∧ (r.held = true → r.sentAt + 4096 ≤ s.clock → r.peer ≠ s.pkg.toNat →
      exec (.packetResend q) s = .next { s with
        fabric := s.fabric.map (fun x => if x.id = q then { x with held := false, sentAt := s.clock } else x)
        out := s.out ++ [.resend q] })
    ∧ (∀ c, r.held = true → r.sentAt + 4096 ≤ s.clock → r.peer = s.pkg.toNat → s.cmds = [c] → r.ofCmd c.id = true →
      exec (.packetResend q) s = .next (State.endCmd { s with fabric := s.fabric.filter (fun x => x.id != q) } c)))
  ∧ (∀ (s : State) (v : Dword), s.cur.live = true →
    let g := s.group s.cur.pl.group
    let n := getBits g.cring 40 4
    let d := (v - g.crcons).toInt
    (n = 0 ∨ 13 < n ∨ d ≤ 0 → exec (.ringPublish s.cur.id v) s = .next s)
    ∧ (1 ≤ n → n ≤ 13 → 2 ^ n < d → (∀ h ∈ s.harts, h.id ≠ s.cur.id) →
      ∃ t, exec (.ringPublish s.cur.id v) s = .next t ∧ t.cur.m.fails = s.cur.m.fails ++
          [{ reason := 21, kind := 0, fn := 0, va := 0, token := 0, op := none }] ∧ t.mem = s.mem ∧ t.cmds = s.cmds)
    ∧ (∀ o ∈ ringBad g g.crcons.toNat, o < 8 → 1 ≤ n → n ≤ 13 → d = 1 → (∀ h ∈ s.harts, h.id ≠ s.cur.id) →
      ∃ t, exec (.ringPublish s.cur.id v) s = .next t ∧ t.cur.m.fails = s.cur.m.fails ++
          [{ reason := 18, kind := 0, fn := 0, va := 0, token := 0, op := none }]
        ∧ (t.group s.cur.pl.group).crcons = v ∧ t.mem = s.mem ∧ t.cmds = s.cmds)
    ∧ (∀ owner, 1 ≤ n → n ≤ 13 → d = 1 →
      let bs := memRead g.scratch (getBits g.cring 5 13 * 32 + 32 * (g.crcons.toNat % 2 ^ n)) 32
      let tok := ((bs[3]?).getD 0).toNat % 128
      (s.warpsOf s.cur.pl.group).find? (fun w => w.pl.widx == ((bs[4]?).getD 0).toNat % 16) = some owner →
      let bad := ringBad g g.crcons.toNat
      (bad = [] → owner.r.fullS tok = false ∨ 63 ≤ owner.m.cp.length → exec (.ringPublish s.cur.id v) s = .next s)
      ∧ (bad = [] → owner.r.fullS tok = true → owner.m.cp.length < 63 → entryMalformed bs = false →
        let c := { ringCmd s.cur owner (s.asidOf s.cur) g bs with id := s.nextId }
        s.cmdRefusal s.cur.y.wswin { c with id := 0 } = none → c.empty = false →
        ∃ t, exec (.ringPublish s.cur.id v) s = .next t ∧ t.cmds = s.cmds ++ [c] ∧ (t.group s.cur.pl.group).crcons = v
          ∧ t.mem = s.mem)))

/-! ### Errors, parity groups and the loss of a die (R194, R248, R340 to R352) -/

open Sys2Proof Sys2Proof.Machine in
/-- R194, R248, R340 to R347: what fails correction is poisoned and logged; a write at a home sends its delta in the stream of
its home slice, and deltas are applied in the order of their stream; a word is rebuilt; and a group degrades, is rebuilt and
restored. What other members hold arrives with the events (the model's form of its surroundings, log entry 17). That a record which
finds no room posts no event is the model's reading (log entry 35). -/
def Obligations.ErrorsAndParity : Prop :=
  (∀ (s : State) (r : ErrRec),
    let n := getBits s.fe.errcfg 0 4
    let used := (s.fe.errprod.toNat + 2 ^ 32 - s.fe.errcons.toNat) % 2 ^ 32
    (n = 0 ∨ 2 ^ n ≤ used → let t := s.logError r
      t.fe.errcfg = putBits s.fe.errcfg 32 32 (min (getBits s.fe.errcfg 32 32 + 1) (2 ^ 32 - 1)) ∧ t.mem = s.mem
      ∧ t.fe.raised = s.fe.raised ∧ t.fe.errprod = s.fe.errprod)
    ∧ (n ≠ 0 → used < 2 ^ n → let t := s.logError r
      t.fe.errprod = BitVec.ofNat 64 ((s.fe.errprod.toNat % 2 ^ 32 + 1) % 2 ^ 32)
      ∧ (∀ x ∈ r.sites, t.recordOf x = BitVec.ofNat 32 (s.fe.errprod.toNat % 2 ^ 32))
      ∧ ∃ e, t.fe.raised = s.fe.raised ++ [e] ∧ e.e.code = 0x80000400 ∧ e.e.detail = BitVec.ofNat 64 (s.fe.errprod.toNat % 2 ^ 32)))
  ∧ (∀ (s : State) (pw : PWord) (core : Option Nat), pw.off % 4 = 0 → pw.kind = 0 →
    exec (.uncorrectableError ⟨.word pw, core⟩) s = .next (State.logError { s with memBad := addNat s.memBad (pwKey pw) }
      { sites := [.word pw], addr := pw.off, source := 0, action := 0, unit := homeUnit pw.off
        req := match core with
          | some k => BitVec.ofNat 64 (s.pkg.toNat * 2 ^ 16 + k % 512)
          | none => BitVec.allOnes 64 }))
  ∧ (∀ (s : State) (core : Option Nat), getBits s.fe.errcfg 0 4 = 0 →
    (∀ pw, pw.off % 4 = 0 → ∃ t, exec (.uncorrectableError ⟨.word pw, core⟩) s = .next t ∧ pwKey pw ∈ t.memBad ∧ t.mem = s.mem
        ∧ (∀ k, k ≠ pwKey pw → (k ∈ t.memBad ↔ k ∈ s.memBad)) ∧ t.cur = s.cur)
    ∧ (∀ pw, pw.off % 4 = 0 → pw.kind = 0 → ∃ t, exec (.uncorrectableError ⟨.llc pw, core⟩) s = .next t ∧ pwKey pw ∈ t.memBad
        ∧ t.mem = s.mem ∧ t.cur = s.cur)
    ∧ (∀ n w, n.level ≤ 1 → (s.copyAt n w).st ≠ .i →
        ∃ t, exec (.uncorrectableError ⟨.copy n w, core⟩) s = .next t ∧ t.copyAt n w = { s.copyAt n w with node := n, key := w, bad := true }
          ∧ t.mem = s.mem ∧ t.memBad = s.memBad)
    ∧ (∀ g off, s.groupLives g = true → off % 4 = 0 → off + 4 ≤ (s.group g).scratchSize →
        ∃ t, exec (.uncorrectableError ⟨.scratch g off, core⟩) s = .next t ∧ off ∈ (t.group g).scratchBad
          ∧ (t.group g).scratch = (s.group g).scratch ∧ t.mem = s.mem)
    ∧ (∀ r, s.cur.live = true → r < s.cur.pl.regs → r < 1024 →
        ∃ t, exec (.uncorrectableError ⟨.vreg s.cur.id r, core⟩) s = .next t ∧ (t.cur.r.getV r).tag = 0xF00
          ∧ RegsKept [] [r] [] [] s.cur.r t.cur.r ∧ t.mem = s.mem)
    ∧ (∀ r, s.cur.live = true → 1 ≤ r → r < 128 →
        ∃ t, exec (.uncorrectableError ⟨.sreg s.cur.id r, core⟩) s = .next t ∧ r ∈ t.cur.r.sbad
          ∧ RegsKept [] [] [] [] s.cur.r t.cur.r ∧ t.mem = s.mem))
  ∧ (∀ (s : State) (off r : Nat) (x y : Word), s.parity.rowOf off = some r → s.parity.holder r ≠ s.parity.selfIdx →
    s.parity.rowHasParity r = true →
    let h := s.parity.member (s.parity.holder r)
    let k := 2048 * s.pkg.toNat + 16 * homeSliceOf off + h
    let q := s.parity.nextSeq.at k 0
    let t := s.sendDelta off x y false
    t.out.getLast? = some (.delta { src := s.pkg.toNat, stream := homeSliceOf off, seq := q, off := off, xor := leBytes 4 x.toNat
                                    new := leBytes 4 y.toNat, spoils := false } h)
    ∧ t.parity.nextSeq.at k 0 = q + 1 ∧ (∀ j, j ≠ k → t.parity.nextSeq.at j 0 = s.parity.nextSeq.at j 0)
    ∧ t.parity.sent = s.parity.sent ++ [{ id := { home := s.pkg.toNat, slice := homeSliceOf off, holder := h, seq := q }, off := off, val := y }]
    ∧ t.mem = s.mem)
  ∧ (∀ (s : State) (d : Delta) (r : Nat), s.parity.rowOf d.off = some r → s.parity.holder r = s.parity.selfIdx →
    (s.peer d.src).departed = false →
    let next := s.parity.applied.at (d.src + 16 * d.stream) 0
    let name : DeltaId := { home := d.src, slice := d.stream, holder := s.pkg.toNat, seq := d.seq }
    (d.seq < next → exec (.parityDelta d) s = .next { s with out := s.out ++ [.deltaAck name] })
    ∧ (next < d.seq → s.parity.waiting = [] →
        exec (.parityDelta d) s = .next { s with parity := { s.parity with waiting := [d] } })
    ∧ (∀ x w, d.seq = next → s.parity.waiting = [] → d.off % 4 = 0 → memWf s.mem = true → d.xor = leBytes 4 x →
        s.homeWord (hbmWord d.off) = (w, false) → d.spoils = false → (∀ e ∈ s.parity.lostWords, e.off ≠ d.off) →
        s.parity.rowHasParity r = true →
        ∃ t, exec (.parityDelta d) s = .next t ∧ memWord t.mem (hbmKey d.off) = w ^^^ BitVec.ofNat 32 x
          ∧ t.parity.applied.at (d.src + 16 * d.stream) 0 = d.seq + 1 ∧ t.out.getLast? = some (.deltaAck name)
          ∧ ∀ a, a < hbmKey d.off ∨ hbmKey d.off + 4 ≤ a → memGet t.mem a = memGet s.mem a)
    ∧ (d.seq = next → s.parity.waiting = [] → s.parity.rowHasParity r = false →
        ∃ t, exec (.parityDelta d) s = .next t ∧ t.mem = s.mem ∧ t.parity.applied.at (d.src + 16 * d.stream) 0 = d.seq + 1
          ∧ t.out = s.out ++ [.deltaAck name])
    ∧ (∀ x y m n, d.seq = next → s.parity.waiting = [] → d.off % 4 = 0 → d.xor = leBytes 4 x → d.new = leBytes 4 y →
        d.spoils = true → s.parity.lostWords = [] → s.parity.rowHasParity r = true → s.parity.indexOf d.src = some m →
        n ∈ s.parity.dataMembers r → n ≠ m →
        ∃ t, exec (.parityDelta d) s = .next t ∧ hbmKey d.off ∈ t.memBad ∧ t.out.getLast? = some (.deltaAck name)))
  ∧ (∀ (s : State) (d : DeltaId),
    ((∀ x ∈ s.parity.sent, x.id ≠ d) → exec (.parityDeltaAck ⟨d.home, d.slice, d.holder⟩ d.seq) s = .next s)
    ∧ ((s.peer d.holder).departed = true → exec (.parityDeltaAck ⟨d.home, d.slice, d.holder⟩ d.seq) s = .next s)
    ∧ ((s.peer d.holder).departed = false → (∃ x ∈ s.parity.sent, x.id = d) →
      ∃ t, exec (.parityDeltaAck ⟨d.home, d.slice, d.holder⟩ d.seq) s = .next t ∧ t.mem = s.mem
        ∧ ∀ x, x ∈ t.parity.sent ↔ x ∈ s.parity.sent ∧ x.id ≠ d))
  ∧ (∀ (s : State) (off : Nat) (others : Option Word),
    let at_ := off / 4 * 4
    (s.parity.rowOf at_ = none → exec (.parityWordRebuild ⟨off, others⟩) s = .next s)
    ∧ (hbmKey at_ ∉ s.memBad → exec (.parityWordRebuild ⟨off, others⟩) s = .next s)
    ∧ (∀ r, s.parity.rowOf at_ = some r → s.parity.holder r = s.parity.selfIdx → exec (.parityWordRebuild ⟨off, others⟩) s = .next s)
    ∧ (∀ r, s.parity.rowOf at_ = some r → s.parity.holder r ≠ s.parity.selfIdx → hbmKey at_ ∈ s.memBad →
      getBits s.fe.errcfg 0 4 = 0 → memWf s.mem = true →
      (∀ w, others = some w → s.parity.degraded = false →
        ∃ t, exec (.parityWordRebuild ⟨off, others⟩) s = .next t ∧ memWord t.mem (hbmKey at_) = w
          ∧ (∀ a, a < hbmKey at_ ∨ hbmKey at_ + 4 ≤ a → memGet t.mem a = memGet s.mem a)
          ∧ ∀ k, k ∈ t.memBad ↔ k ∈ s.memBad ∧ k ≠ hbmKey at_)
      ∧ (others = none ∨ (s.parity.degraded = true ∧ s.parity.restoring = false) →
        ∃ t, exec (.parityWordRebuild ⟨off, others⟩) s = .next t ∧ t.mem = s.mem ∧ t.memBad = s.memBad ∧ at_ ∈ t.parity.failed)))
  ∧ (∀ s : State, let p := s.parity
    (∀ m, p.on = true → p.degraded = false → m < p.g → m ≠ p.selfIdx → (s.peer (p.member m)).departed = true →
      ∃ t, exec (.groupDegraded m) s = .next t ∧ t.parity.degraded = true ∧ t.parity.rebuilding = true ∧ t.parity.lost = m
        ∧ t.parity.nextRow = 0 ∧ t.mem = s.mem
        ∧ (((List.range p.g).filter (fun x => x != m)).head? = some p.selfIdx →
            ∃ e, t.fe.raised = s.fe.raised ++ [e] ∧ e.e.code = 0x80000300 ∧ e.e.detail = BitVec.ofNat 64 m)
        ∧ (((List.range p.g).filter (fun x => x != m)).head? ≠ some p.selfIdx → t.fe = s.fe))
    ∧ (∀ m, p.degraded = true → exec (.groupDegraded m) s = .next s)
    ∧ (∀ row others, p.rowUnderWay row = true → exec (.parityRowRebuild ⟨row, others⟩) s = .next s)
    ∧ (∀ row others, p.degraded = true → p.rebuilding = true → row < p.rows → p.rebuilt row = false → (∀ x ∈ p.early, x < p.rows) →
      p.rowUnderWay row = false → others.length = 65536 →
      let base := p.frameAt row (if p.holder row = p.selfIdx then none else some (p.member (p.holder row)))
      ∃ t, exec (.parityRowRebuild ⟨row, others⟩) s = .next t ∧ t.parity.rebuilt row = true
        ∧ (p.holder row = p.lost → t.mem = s.mem)
        ∧ (∀ a, a < pwKey base ∨ pwKey base + 65536 ≤ a → memGet t.mem a = memGet s.mem a)
        ∧ (p.holder row = p.selfIdx → p.holder row ≠ p.lost → p.safe = [] → memWf s.mem = true →
          ∀ j, j < 16384 → memWord t.mem (pwKey base + 4 * j) = memWord s.mem (pwKey base + 4 * j)
            ^^^ BitVec.ofNat 32 (leNat ((others.drop (4 * j)).take 4)))
        ∧ (∀ e j, p.holder row = p.selfIdx → p.holder row ≠ p.lost → memWf s.mem = true → j < 16384 → p.safe = [e] →
          e.key = pwKey (p.frameAt row (some (p.member p.lost))) + 4 * j →
          let x := memWord s.mem (pwKey base + 4 * j) ^^^ BitVec.ofNat 32 (leNat ((others.drop (4 * j)).take 4))
          memWord t.mem (pwKey base + 4 * j) = if x ∈ e.late then x else e.val))
    ∧ (p.degraded = true → p.rebuilding = true → p.rows ≤ p.nextRow →
      ∃ t e, exec .parityRebuildComplete s = .next t ∧ t.parity.rebuilding = false ∧ t.parity.degraded = true
        ∧ t.fe.raised = s.fe.raised ++ [e] ∧ e.e.code = 0x80000301 ∧ e.e.detail = BitVec.ofNat 64 p.rows ∧ t.mem = s.mem)
    ∧ (p.rebuilding = false → exec .parityRebuildComplete s = .next s)
    ∧ (∀ k, p.degraded = true → p.rebuilding = false → k < 16 →
      ∃ t, exec (.parityMemberReplace p.lost k) s = .next t ∧ t.parity.member p.lost = k ∧ t.parity.nextRow = 0
        ∧ (∀ m, m < 16 → m ≠ p.lost → t.parity.member m = p.member m) ∧ t.parity.restoring = true ∧ { t with parity := p } = s)
    ∧ (∀ others, p.degraded = true → p.restoring = true → p.nextRow < p.rows → others.length = 65536 →
      ∃ t, exec (.parityRowRestore ⟨p.nextRow, others⟩) s = .next t ∧ t.parity.nextRow = p.nextRow + 1
        ∧ t.parity.degraded = decide (p.nextRow + 1 < p.rows)
        ∧ (p.holder p.nextRow = p.lost → p.lost ≠ p.selfIdx → t.mem = s.mem)
        ∧ (p.lost = p.selfIdx → memWf s.mem = true → ∀ j, j < 16384 →
          memWord t.mem (pwKey (p.frameAt p.nextRow none) + 4 * j) = BitVec.ofNat 32 (leNat ((others.drop (4 * j)).take 4)))))

open Sys2Proof Sys2Proof.Machine in
/-- R27, R350, R351: the loss of a compute die ends its work and drops its caches; its stack directory's entries are resolved
four a clock, and the count of what was lost is posted. When the census is taken is log entry 28. -/
def Obligations.DieLoss : Prop :=
  ∀ (s : State) (d : Nat),
    ((16 ≤ d ∨ (s.die d).failed = true) → exec (.dieLoss d) s = .next s)
    ∧ (d < 16 → (s.die d).failed = false →
      ∃ t, exec (.dieLoss d) s = .next t ∧ (t.die d).failed = true ∧ (t.die d).icache = [] ∧ (t.die d).ahead = []
        ∧ (∀ c ∈ t.copies, nodeUnder { level := 2, idx := d } c.node = false)
        ∧ (∀ g, (s.group g).phase = .resident → dieOf (s.group g).core = d → (∃ x, (g, x) ∈ s.groups) → (t.group g).phase = .ended)
        ∧ (∀ e, e ≠ d → (t.die e).failed = (s.die e).failed ∧ (t.die e).spans = (s.die e).spans
            ∧ (t.die e).rebuild = (s.die e).rebuild))
    ∧ (∀ n k, (s.die d).rebuild = some (n, k) →
      ((s.die d).spans = [] → exec (.dieDirectoryRebuild d) s = .next s)
      ∧ ((s.die d).spans ≠ [] → ∃ t, exec (.dieDirectoryRebuild d) s = .next t ∧ (t.die d).spans = (s.die d).spans.drop 4
        ∧ (t.die d).rebuild = some (n + 1, k + (((s.die d).spans.take 4).filter (fun x => x.lost)).length) ∧ t.cur = s.cur)
      ∧ ((s.die d).spans ≠ [] → exec (.dieRebuildComplete d) s = .next s)
      ∧ ((s.die d).spans = [] → ∃ t e, exec (.dieRebuildComplete d) s = .next t ∧ (t.die d).rebuild = none
        ∧ t.fe.raised = s.fe.raised ++ [e] ∧ e.e.code = 0x80000201
        ∧ e.e.detail = BitVec.ofNat 64 (n % 2 ^ 32 * 2 ^ 32 + k % 2 ^ 32) ∧ t.mem = s.mem ∧ t.cur = s.cur))
    ∧ ((s.die d).rebuild = none → exec (.dieDirectoryRebuild d) s = .next s ∧ exec (.dieRebuildComplete d) s = .next s)

/-! ### Scheduling, placement and pre-emption (R258 to R264, R281 to R292, R316 to R320) -/

open Sys2Proof Sys2Proof.Machine in
/-- R284 to R287, R292: the pick of an issue unit takes a ready stream that none goes before, and counts what it passes over; a
core's clock passes with its schedulers' picks, a Bowler's with its own, and FROZEN counts the clocks in which a sequencer is frozen
on a miss; a missing line is filled for the streams that wait for it, and each of them counts it once in SLIPS. That a core's clock
passes so, and that one pick is one clock of the package, is the model's choice (log entry 4). -/
def Obligations.Scheduling : Prop :=
  (∀ (s : State) (u : IssueUnit),
    let k : State := { (s.tick.unitClock u) with picked := false }
    let w : State := k.reachTable (k.allHarts.filter (fun h => servedBy u h))
    (s.powered = false → exec (.issuePick u) s = .next s)
    ∧ (s.powered = true → ∃ t, exec (.issuePick u) s = .next t ∧ t.clock = s.clock + 1)
    ∧ (s.powered = true → k.unitOpen u = false → exec (.issuePick u) s = .next k)
    ∧ (s.powered = true → k.unitOpen u = true → (∀ h ∈ w.allHarts, servedBy u h = true → w.ready h = false) →
        exec (.issuePick u) s = .next w)
    ∧ (∀ r ∈ w.allHarts, s.powered = true → k.unitOpen u = true → servedBy u r = true → w.ready r = true →
      ∃ t h, exec (.issuePick u) s = .next t ∧ t.picked = true ∧ t.cur.id = h.id
        ∧ h ∈ w.allHarts ∧ servedBy u h = true ∧ w.ready h = true
        ∧ (∀ x ∈ w.allHarts, servedBy u x = true → w.ready x = true → ltNats (w.pickKey x) (w.pickKey h) = false)
        ∧ (∀ x ∈ t.allHarts, ∃ y ∈ w.allHarts, x = { y with sch := x.sch }
          ∧ (servedBy u y = false → x.sch = y.sch)
          ∧ (servedBy u y = true → y.id = h.id → x.sch = { y.sch with unpicked := 0, lastPick := some w.clock })
          ∧ (servedBy u y = true → y.id ≠ h.id → w.ready y = true → x.sch = { y.sch with unpicked := y.sch.unpicked + 1 })
          ∧ (servedBy u y = true → (∀ z ∈ w.allHarts, w.ready z = true → z.id ≠ y.id) → x.sch.unpicked = 0))))
  ∧ (∀ (s : State) (a b : Hart),
    (64 ≤ a.sch.unpicked → b.sch.unpicked < 64 → ltNats (s.pickKey a) (s.pickKey b) = true)
    ∧ (a.sch.unpicked < 64 → b.sch.unpicked < 64 → s.classOfWarp b < s.classOfWarp a → s.classOfWarp a ≤ 7 →
        ltNats (s.pickKey a) (s.pickKey b) = true)
    ∧ (∀ m n, a.sch.unpicked < 64 → b.sch.unpicked < 64 → s.classOfWarp a = s.classOfWarp b → a.sch.lastPick = some m →
        b.sch.lastPick = some n → m < n → ltNats (s.pickKey a) (s.pickKey b) = true))
  ∧ (∀ (s : State) (c k cl : Nat),
    let b : BitVec 2 := if k % 2 = 0 then 1 else 2
    let t := s.unitClock (.sched c k)
    let v := s.unitClock (.bowler cl)
    let frozen := fun (r : Role) (d : Nat) => s.allHarts.any (fun h => h.role == r && h.pl.core == d && (s.missing h).isSome)
    let counted := fun (x : Dword) (y : Dword) => getBits y 0 32 = getBits x 0 32
      ∧ getBits y 32 32 = min (getBits x 32 32 + 1) (2 ^ 32 - 1)
    ((t.core c).cclk = (s.core c).cclk + (if (s.core c).turn &&& b = 0 then 0 else 1))
    ∧ ((s.core c).turn &&& b ≠ 0 → frozen .warp c = true → counted (s.core c).slipc (t.core c).slipc)
    ∧ ((s.core c).turn &&& b = 0 ∨ frozen .warp c = false → (t.core c).slipc = (s.core c).slipc)
    ∧ (t.core c).busyUntil = (s.core c).busyUntil ∧ (∀ d, d ≠ c → t.core d = s.core d) ∧ { t with cores := s.cores } = s
    ∧ (v.cluster cl).cclk = (s.cluster cl).cclk + 1 ∧ (v.cluster cl).table = (s.cluster cl).table
    ∧ (frozen .bowler (4 * cl) = true → frozen .warp (4 * cl) = false → counted (s.core (4 * cl)).slipc (v.core (4 * cl)).slipc)
    ∧ (frozen .bowler (4 * cl) = false ∨ frozen .warp (4 * cl) = true → v.cores = s.cores)
    ∧ (v.core (4 * cl)).cclk = (s.core (4 * cl)).cclk ∧ (∀ d, d ≠ 4 * cl → v.core d = s.core d)
    ∧ (∀ d, d ≠ cl → v.cluster d = s.cluster d) ∧ { v with clusters := s.clusters, cores := s.cores } = s)
  ∧ (∀ (s : State) (die : Nat) (asid : BitVec 16) (line : Dword),
    let n := s.countMisses
    (s.waitingLine die asid line = [] → (∀ x ∈ (s.die die).ahead, ¬ (x.asid = asid ∧ x.addr = line)) →
      exec (.ifetchFill die asid line) s = .next s)
    ∧ (∀ x, s.waitingLine die asid line = [] → (s.die die).ahead = [x] → x.asid = asid → x.addr = line →
      let u := s.setDie die { s.die die with ahead := [] }
      u.fetchWaits x.core asid line = [] → dieOf x.core = die → (s.die die).heldLines ≤ 1023 →
      (∀ e w, u.fetchLine x.core asid line = (.error e, w) → exec (.ifetchFill die asid line) s = .next w)
      ∧ (∀ l w, u.fetchLine x.core asid line = (.ok l, w) →
        ∃ t y, exec (.ifetchFill die asid line) s = .next t ∧ (t.die die).lineAt asid line = some y ∧ y.data = l.data
          ∧ (∀ g ∈ x.held, g ∈ y.held) ∧ t.mem = s.mem ∧ t.cur = s.cur))
    ∧ (∀ h rest, s.waitingLine die asid line = h :: rest → n.fetchWaits h.pl.core asid line ≠ [] →
      ∃ t, exec (.ifetchFill die asid line) s = .next t ∧ t.dies = s.dies ∧ t.mem = s.mem)
    ∧ (∀ h rest x, s.waitingLine die asid line = h :: rest → (s.die die).heldLines ≤ 1024 →
      n.fetchWaits h.pl.core asid line = [] → (n.fetchLine h.pl.core asid line).1 = .ok x →
      ∃ t y, exec (.ifetchFill die asid line) s = .next t ∧ (t.die die).lineAt asid line = some y ∧ y.data = x.data
        ∧ y.user = x.user ∧ (∀ e, e ≠ die → t.die e = s.die e) ∧ t.mem = s.mem
        ∧ t.cur = { s.cur with c := { s.cur.c with missed := t.cur.c.missed } }
        ∧ (s.harts = [] → h = s.cur → rest = [] → s.cur.c.missed = none →
            getBits (t.core s.cur.pl.core).slipc 0 32 = (getBits (s.core s.cur.pl.core).slipc 0 32 + 1) % 2 ^ 32))
    ∧ (∀ k, s.waitingLine die asid line = [s.cur] → s.cur.role = .warp → settled s.cur = true →
      n.fetchWaits s.cur.pl.core asid line = [] → (n.fetchLine s.cur.pl.core asid line).1 = .error k →
      let e := (n.fetchLine s.cur.pl.core asid line).2.fetchKind line k
      ∃ t, exec (.ifetchFill die asid line) s = .next t ∧ t.cur.t.side.cls = 3 ∧ t.cur.t.side.kind = BitVec.ofNat 4 e
        ∧ t.cur.t.side.vaddr = lineAddr s.cur.c.pc ∧ t.cur.r = s.cur.r ∧ t.mem = s.mem))

open Sys2Proof Sys2Proof.Machine in
/-- R258 to R264, R281 to R283, R288 to R290, R304, R316 to R320, R324: a seed or a gang is placed whole, in the order of its
launch, with the registers its warps begin with; a unit is held back for the oldest gang; and gangs are saved core by core, once
the shadow copies of a core are free, and resumed from their records. Where a gang goes is the event's choice among the places
that take it (log entry 20), and where a record lies is a free value (log entry 19). That hold-back reserves only a unit that could
hold the gang when empty is the model's reading (log entry 53), and that a saved gang's age counts from its save is its choice (log
entry 88). -/
def Obligations.Gangs : Prop :=
  (∀ (s : State) (l : Nat) (sites : List Site), s.streamsDistinct →
    let x := s.launch l
    (s.turn l = false → exec (.gangPlacement l sites) s = .next s)
    ∧ (∀ w, s.want l = some w → s.sitesOk l w sites = false → exec (.gangPlacement l sites) s = .next s)
    ∧ (∀ w p, x.seedPlaced = false → s.turn l = true → s.want l = some w → sites = [p] → s.sitesOk l w sites = true →
      ∃ t, exec (.gangPlacement l sites) s = .next t ∧ (t.launch l).seedPlaced = true
        ∧ (x.hdr.bowlEntry = 0 → (t.launch l).counter = 1 ∧ t.cur = s.cur) ∧ t.mem = s.mem
        ∧ ∃ h ∈ t.harts, h.role = .warp ∧ h.live = true ∧ h.pl.launch = l ∧ h.pl.core = p.core ∧ h.pl.slot = p.slot
          ∧ h.c.pc = x.hdr.seedEntry ∧ h.c.arriving = true ∧ h.c.priv = false ∧ h.r.getS 1 = x.param ∧ h.r.getS 2 = 0
          ∧ h.r.getS 3 = 0 ∧ h.r.getB 0 = true ∧ (t.group h.pl.group).seed = true ∧ (t.group h.pl.group).phase = .resident
          ∧ (t.group h.pl.group).core = p.core ∧ (t.group h.pl.group).asid = x.asid
          ∧ (t.group h.pl.group).scratchSize = x.hdr.seedScr)
    ∧ (∀ w first n arg sc born rest, x.seedPlaced = true → x.pending = .range first n arg sc born :: rest → s.turn l = true →
      s.want l = some w → s.sitesOk l w sites = true →
      let size := x.hdr.gangSize
      ∃ t, exec (.gangPlacement l sites) s = .next t ∧ t.mem = s.mem
        ∧ (t.launch l).pending = (if n ≤ size then rest else .range (first + size) (n - size) arg sc born :: rest)
        ∧ ∀ k p i, k < size → sites[k]? = some p → i < x.hdr.warps →
          ∃ h ∈ t.allHarts, h.role = .warp ∧ h.live = true ∧ h.pl.launch = l ∧ h.pl.core = p.core ∧ h.pl.slot = p.slot + i
            ∧ h.pl.widx = i ∧ h.c.pc = x.hdr.wgEntry ∧ h.c.arriving = true ∧ h.c.priv = false ∧ h.r.getS 1 = x.param
            ∧ h.r.getS 2 = arg ∧ h.r.getS 3 = BitVec.ofNat 64 i ∧ (t.group h.pl.group).wgnum = first + k
            ∧ (t.group h.pl.group).phase = .resident ∧ (t.group h.pl.group).core = p.core
            ∧ (t.group h.pl.group).pinned = x.hdr.pinned))
  ∧ (∀ s : State,
    (s.oldestLaunch = none → exec .holdbackReserve s = .next s)
    ∧ (∀ l w, s.oldestLaunch = some l → s.want l = some w →
      let fits := fun u => u < 512 / nodeSpan w.level ∧ w.count ≤ (s.unitCores w.level u).length * capacity w.need 32 []
      ((s.fe.hold ≠ none ∨ s.clock < s.fe.oldestAt + 262144 ∨ s.fe.oldest ≠ s.oldestName ∨ ∀ u, ¬ fits u) → exec .holdbackReserve s = .next s)
      ∧ (∀ v, s.fe.hold = none → s.fe.oldestAt + 262144 ≤ s.clock → s.fe.oldest = s.oldestName → fits v →
        ∃ t u, exec .holdbackReserve s = .next t
          ∧ t.fe.hold = some { launch := l, saved := if w.gang = 0 then none else some w.gang, level := w.level, unit := u } ∧ fits u
          ∧ (∀ a, fits a → s.freeSlots w.level a ≤ s.freeSlots w.level u)
          ∧ (∀ a, fits a → s.freeSlots w.level a = s.freeSlots w.level u → u ≤ a)
          ∧ { t with fe := { t.fe with hold := none } } = s)))
  ∧ (∀ (s : State) (q : Nat),
    let x := s.queue q
    let due := getBits x.qcfg 0 32 * 1024
    let mine := fun (p : Nat × Gang) => p ∈ s.gangs ∧ p.2.pinned = false ∧ (s.launch p.2.launch).queue = q
      ∧ s.gangIn p.1 .resident ≠ []
    (getBits x.qcfg 0 32 = 0 ∨ x.slice < due → exec (.sliceExpiry q) s = .next s)
    ∧ (getBits x.qcfg 0 32 ≠ 0 → due ≤ x.slice → ∃ t, exec (.sliceExpiry q) s = .next t ∧ (t.queue q).slice = 0 ∧ t.mem = s.mem
      ∧ ((∀ l, l ∉ s.launches.map (fun p => p.1) ∨ (s.launch l).queue = q) →
          (s.launches.map (fun p => p.1)).Nodup → { t with queues := s.queues } = s)
      ∧ (∀ l c, (l, c) ∈ s.launches → c.queue ≠ q → (s.want l).isSome = true →
          (s.setQueue q { x with slice := 0 }).placeable l = false → (∀ p, mine p → (s.launch p.2.launch).pri ≤ c.pri) →
          ∀ p, mine p → (t.gang p.1).saveAsked = true ∨ t.gangIn p.1 .resident = [])))
  ∧ (∀ (s : State) (g : Nat),
    let gs := s.gangIn g .resident
    let here := fun (c : Nat) => gs.filter (fun k => (s.group k).core == c)
    (gs = [] → exec (.gangSave g) s = .next s)
    ∧ (gs ≠ [] → (∀ k ∈ gs, s.shadowFree (here (s.group k).core) = false) → ∃ t, exec (.gangSave g) s = .next t
        ∧ t.gang g = { s.gang g with saveAsked := true, stopping := false } ∧ (∀ k, k ≠ g → t.gang k = s.gang k)
        ∧ { t with gangs := s.gangs } = s)
    ∧ (∀ k, gs = [k] → s.shadowFree gs = true → s.picked = true → s.cur.role = .warp → s.cur.pl.group = k →
        ∃ t, exec (.gangSave g) s = .next t
        ∧ t.gang g = { s.gang g with saveAsked := true, stopping := true } ∧ (∀ k, k ≠ g → t.gang k = s.gang k)
        ∧ { t with gangs := s.gangs } = s)
    ∧ (gs ≠ [] → (∀ k ∈ gs, s.shadowFree (here (s.group k).core) = true) → s.picked = false → ∃ t, exec (.gangSave g) s = .next t
      ∧ t.mem = s.mem ∧ t.cur.r = s.cur.r ∧ (t.gang g).saveAsked = false
      ∧ (∀ k, k ∉ gs → t.group k = s.group k)
      ∧ ∀ k ∈ gs, (t.group k).phase = .saving ∧ (t.group k).swapDone = false ∧ (t.group k).scratch = (s.group k).scratch
        ∧ (t.core (s.group k).core).busyUntil = (s.core (s.group k).core).cclk + 49
        ∧ ∀ h ∈ t.allHarts, h.role = .warp → h.live = true → h.pl.group = k →
            h.c.napEnd = none ∧ (keepsWait h = false → h.c.wait = none)))
  ∧ (∀ (s : State) (g : Nat),
    let gs := (s.gangIn g .saving).filter (fun k => !(s.group k).swapDone)
    let due := fun (k : Nat) => (s.core (s.group k).core).busyUntil ≤ (s.core (s.group k).core).cclk
    ∃ t, exec (.bankSwapComplete g) s = .next t ∧ (∀ k ∈ gs, due k → t.group k = { s.group k with swapDone := true })
      ∧ (∀ k, k ∉ gs ∨ ¬ due k → t.group k = s.group k) ∧ { t with groups := s.groups } = s)
  ∧ (∀ (s : State) (g : Nat),
    let x := s.group g
    let done := x.phase = .saving ∧ x.swapDone = true ∧ x.spilled = false
      ∧ ∀ h ∈ s.warpsOf g, h.m.returning = [] ∧ regsRead x h = true
    (¬ done → exec (.spillComplete g) s = .next s)
    ∧ (done → (∀ p ∈ s.gangs, p.2.saveAsked = false) → ∃ t, exec (.spillComplete g) s = .next t
      ∧ (memWf s.mem = true →
          memRead t.mem (hbmKey (recordBase g)) (s.contextBytes g).length = s.contextBytes g)
      ∧ t.group g = { x with spilled := true } ∧ (∀ k, k ≠ g → t.group k = s.group k) ∧ t.cur = s.cur ∧ t.harts = s.harts))
  ∧ (∀ (s : State) (g : Nat),
    let gs := s.gangIn g .saving
    let ids := (s.allHarts.filter (fun h => h.role == .warp && h.live && gs.contains h.pl.group)).map (fun h => h.id)
    let u := ids.foldl (fun s h => s.onHart h State.finishWarp) s
    ((gs = [] ∨ s.gangIn g .resident ≠ [] ∨ ∃ k ∈ gs, u.savedNow k = false) → exec (.saveComplete g) s = .next s)
    ∧ (gs ≠ [] → s.gangIn g .resident = [] → (∀ k ∈ gs, u.savedNow k = true) → ∃ t, exec (.saveComplete g) s = .next t
      ∧ (∀ k ∈ gs, (t.group k).phase = .saved)
      ∧ ∀ a b, (u.launch (s.gang g).launch).pending = a ++ b → (∀ e ∈ a, ∃ k n, e = .saved k n) →
          (∀ k n, b.head? ≠ some (.saved k n)) →
          (t.launch (s.gang g).launch).pending = a ++ .saved g s.clock :: b))
  ∧ (∀ (s : State) (g : Nat) (sites : List Site),
    let l := (s.gang g).launch
    ((∀ born rest, (s.launch l).pending ≠ .saved g born :: rest) → exec (.gangResume g sites) s = .next s)
    ∧ (s.turn l = false → exec (.gangResume g sites) s = .next s)
    ∧ (∀ w k, s.want l = some w → k ∈ w.saved → s.recordOk k = false → exec (.gangResume g sites) s = .next s)
    ∧ (∀ w born rest, (s.launch l).pending = .saved g born :: rest → (s.launch l).seedPlaced = true → s.turn l = true →
      s.want l = some w → s.sitesOk l w sites = true → w.saved.Nodup → (∀ k ∈ w.saved, s.recordOk k = true) →
      (∀ k p, (k, p) ∈ w.saved.zip sites → (s.group k).bound = true → p.core = (s.group k).core ∧ p.slot = (s.group k).slot) →
      ∃ t, exec (.gangResume g sites) s = .next t ∧ (t.launch l).pending = rest
        ∧ ∀ k p, (k, p) ∈ w.saved.zip sites → (t.group k).phase = .resident ∧ (t.group k).core = p.core ∧ (t.group k).slot = p.slot
          ∧ ∀ h ∈ t.allHarts, h.role = .warp → h.live = true → h.pl.group = k →
              h.pl.core = p.core ∧ ∀ n, n ≠ 0 → n < 128 → h.r.getS n = s.rec64 k (512 + 2048 * h.pl.widx + 336 + 8 * n)))

/-! ### Queues, graphs and the event ring (R268 to R280, R259, R270, R271) -/

open Sys2Proof Sys2Proof.Machine in
/-- R259, R268 to R276, R304: kicks enter a queue and are taken in order; a graph is registered, run with the patches of its kick,
and dropped; a node starts once its predecessors are done; and each error is an event of its code. The one stop of the model is here: the object of a
registered graph was written, of which R268 leaves the outcome undefined. Counts include nested calls (log entry 29). -/
def Obligations.FrontEnd : Prop :=
  (∀ (s : State) (q : Nat) (b : List Byte),
    let x := s.queue q
    let ok := q < 64 ∧ b.length = 64 ∧ bit x.qcfg 63 = true ∧ getBits x.qcfg 61 2 = 0
    (¬ ok → exec (.kickSlotWrite q b) s = .next { s with fe := { s.fe with errors := s.fe.errors + 1 } })
    ∧ (ok → 64 ≤ x.fifo.length → ∃ t e, exec (.kickSlotWrite q b) s = .next t ∧ t.fe.raised = s.fe.raised ++ [e]
        ∧ e.e.type = 6 ∧ e.e.queue = q ∧ e.e.kseq = kickSeq b ∧ t.queues = s.queues ∧ t.mem = s.mem)
    ∧ (ok → x.fifo.length < 64 → ∃ t, exec (.kickSlotWrite q b) s = .next t ∧ t.queue q = { x with fifo := x.fifo ++ [b] }
        ∧ (∀ p, p ≠ q → t.queue p = s.queue p) ∧ { t with queues := s.queues } = s))
  ∧ (∀ (s : State) (q : Nat) (p : Word),
    let x := s.queue q
    let far := 2 ^ getBits x.qring 0 4 < (p.toNat + 2 ^ 32 - getBits x.qidx 32 32) % 2 ^ 32
    (64 ≤ q → exec (.qidxProdWrite q p) s = .next s)
    ∧ (q < 64 → far → ∃ t e, exec (.qidxProdWrite q p) s = .next t ∧ t.fe.raised = s.fe.raised ++ [e] ∧ e.e.type = 2
        ∧ e.e.queue = q ∧ e.e.code = 10 ∧ t.queues = s.queues)
    ∧ (q < 64 → ¬ far → ∃ t, exec (.qidxProdWrite q p) s = .next t ∧ getBits (t.queue q).qidx 0 32 = p.toNat
        ∧ getBits (t.queue q).qidx 32 32 = getBits x.qidx 32 32 ∧ { t with queues := s.queues } = s))
  ∧ (∀ (s : State) (q : Nat) (v : Dword), q < 64 →
    let a := BitVec.ofNat 16 (getBits v 40 16)
    ∃ t, exec (.qcfgWrite q v) s = .next t ∧ getBits (t.queue q).qcfg 0 32 = getBits v 0 32
      ∧ getBits (t.queue q).qcfg 36 3 = getBits v 36 3 ∧ getBits (t.queue q).qcfg 40 16 = getBits v 40 16
      ∧ getBits (t.queue q).qcfg 60 3 = getBits v 60 3
      ∧ bit (t.queue q).qcfg 63 = (bit v 63 && s.astRoot a % 2 == 1) ∧ { t with queues := s.queues } = s)
  ∧ (∀ (s : State) (q : Nat),
    (s.nextKick q = none → exec (.kickRun q) s = .next s ∧ exec (.kickRegister q) s = .next s ∧ exec (.kickUnregister q) s = .next s)
    ∧ (∀ b, s.nextKick q = some (some b) →
      let Fails := fun (i : Instr) (code : Nat) (h : Dword) => ∃ t, exec i s = .next t
        ∧ t.fe.raised = s.fe.raised ++ [{ at_ := s.clock, hart := none,
                                          e := { type := 2, queue := q, node := 0xFFFF, kseq := kickSeq b,
                                                 code := BitVec.ofNat 32 code, handle := h, detail := 0 } }]
        ∧ t.queues = (s.popKick q).queues ∧ t.graphs = s.graphs ∧ t.replays = s.replays ∧ t.mem = s.mem
      (kickType b = 1 ∨ kickType b = 2 → exec (.kickRun q) s = .next s)
      ∧ (kickType b ≠ 1 → exec (.kickRegister q) s = .next s)
      ∧ (kickType b ≠ 2 → exec (.kickUnregister q) s = .next s)
      ∧ (kickType b = 1 → kickBad b = true → Fails (.kickRegister q) 10 0)
      ∧ (kickType b = 2 → kickBad b = true → Fails (.kickUnregister q) 10 0)
      ∧ (kickType b ≠ 1 → kickType b ≠ 2 → kickBad b = true → Fails (.kickRun q) 10 0)
      ∧ (kickType b = 1 → kickBad b = false → (kickTarget b).toNat % 64 ≠ 0 → Fails (.kickRegister q) 8 0)
      ∧ (∀ k u, kickType b = 1 → kickBad b = false → s.register (s.queue q).asid (kickTarget b) = (.ok k, u) →
          ∃ t e, exec (.kickRegister q) s = .next t ∧ (t.graph k).used = true ∧ (t.graph k).base = kickTarget b
            ∧ (t.graph k).asid = (s.queue q).asid ∧ (t.graph k).gen = (s.graph k).gen ∧ (s.graph k).used = false
            ∧ (∀ j, j ≠ k → t.graph j = s.graph j) ∧ t.fe.raised = u.fe.raised ++ [e] ∧ e.e.type = 5
            ∧ e.e.handle = BitVec.ofNat 64 ((s.graph k).gen % 65536 * 2 ^ 48 + k % 4096) ∧ e.e.kseq = kickSeq b)
      ∧ (kickType b = 2 → kickBad b = false → s.graphOf (kickTarget b) = none → Fails (.kickUnregister q) 6 (kickTarget b))
      ∧ (∀ k, kickType b = 2 → kickBad b = false → s.graphOf (kickTarget b) = some k →
          ∃ t, exec (.kickUnregister q) s = .next t
            ∧ (s.inReplay k = true → t.graph k = { s.graph k with unregister := true })
            ∧ (s.inReplay k = false → (t.graph k).used = false ∧ (t.graph k).gen = ((s.graph k).gen + 1) % 65536)
            ∧ (∀ j, j ≠ k → t.graph j = s.graph j) ∧ t.mem = s.mem ∧ t.fe = s.fe)
      ∧ (kickType b = 0 → kickBad b = false → s.queueBusy q = true → exec (.kickRun q) s = .next s)
      ∧ (kickType b = 0 → kickBad b = false → s.queueBusy q = false → s.graphOf (kickTarget b) = none →
          Fails (.kickRun q) 6 (kickTarget b))
      ∧ (∀ k, kickType b = 0 → kickBad b = false → s.queueBusy q = false → s.graphOf (kickTarget b) = some k →
          s.graphBusy q k = true → exec (.kickRun q) s = .next s)
      ∧ (∀ k, kickType b = 0 → kickBad b = false → s.queueBusy q = false → s.graphOf (kickTarget b) = some k →
          s.graphBusy q k = false → field b 24 2 = 0 → field b 26 1 = 0 →
          (∃ n, n < nodeCount (s.graph k).image ∧ predecessors (s.graph k).image n = []) →
          ∃ t r, exec (.kickRun q) s = .next t ∧ (t.replay r).queue = q ∧ (t.replay r).kseq = kickSeq b
            ∧ (t.replay r).graph = k ∧ (t.replay r).depth = 0 ∧ (t.replay r).path = [k] ∧ (t.replay r).parent = none
            ∧ (t.replay r).ended = false ∧ (t.replay r).nodes = List.replicate (nodeCount (s.graph k).image) .idle
            ∧ t.queues = (s.popKick q).queues ∧ t.mem = s.mem ∧ t.fe = s.fe)
      ∧ (∀ k, kickType b = 0 → kickBad b = false → s.queueBusy q = false → s.graphOf (kickTarget b) = some k →
          s.graphBusy q k = false →
          let image := (s.graph k).image
          let asid := (s.queue q).asid
          let entry := fun (d : List Byte) (o : Nat) => ({ node := field d o 2, zero := ((d.drop (o + 2)).take 2).all (fun x => x == 0),
                                                           off := field d (o + 4) 4, val := (d.drop (o + 8)).take 8 } : Patch)
          let inl := (List.range (field b 26 1)).map (fun j => entry b (32 + 16 * j))
          let n := field b 24 2
          let table := s.feRead asid [0, 2] (BitVec.ofNat 64 (field b 16 8)) (16 * n)
          let names := fun (p : Patch) => p.zero = true ∧ p.node < nodeCount image ∧ (gnode image p.node).param ≠ 0 ∧ p.off % 8 = 0
            ∧ p.off + 8 ≤ (gnode image p.node).paramsz
          (n ≠ 0 → (field b 16 8 % 8 ≠ 0 ∨ table = none) → Fails (.kickRun q) 7 (kickTarget b))
          ∧ (∀ ps, (n = 0 → ps = inl) →
              (n ≠ 0 → field b 16 8 % 8 = 0 ∧ ∃ d, table = some d ∧ ps = inl ++ (List.range n).map (fun j => entry d (16 * j))) →
              (((∃ p ∈ ps, ¬ names p) ∨ s.applyPatches asid image ps = none) → Fails (.kickRun q) 7 (kickTarget b))
              ∧ (∀ u, (∀ p ∈ ps, names p) → s.applyPatches asid image ps = some u →
                (∃ m, m < nodeCount image ∧ predecessors image m = []) →
                ∃ t r, exec (.kickRun q) s = .next t ∧ (t.replay r).queue = q ∧ (t.replay r).kseq = kickSeq b
                  ∧ (t.replay r).graph = k ∧ (t.replay r).ended = false ∧ t.mem = u.mem ∧ t.copies = u.copies))
          ∧ (∀ (p : Patch) p0 p1,
              let a := (gnode image p.node).param + BitVec.ofNat 64 p.off
              let lo := s.fePut p0 0 (p.val.take 4)
              a.toNat % 4 = 0 → p.val.length = 8 → s.feWord asid [0, 1, 2] a = some p0 → lo.feWord asid [0, 1, 2] (a + 4) = some p1 →
              s.applyPatches asid image [p] = some (lo.fePut p1 0 (p.val.drop 4))))))
  ∧ (∀ (s : State) (r n : Nat),
    let x := s.replay r
    let d := gnode (s.imageOf r) n
    let own := s.graphHandle x.graph
    let Starts := x.ended = false ∧ s.canStart r n = true ∧ s.fe.quiesce = false ∧ s.recovering = false
    let Errs := fun (code : Nat) (h : Dword) => ∃ t e more, exec (.nodeStart r n) s = .next t
      ∧ t.fe.raised = s.fe.raised ++ e :: more ∧ e.e.type = 2 ∧ e.e.queue = x.queue ∧ e.e.node = n ∧ e.e.kseq = x.kseq
      ∧ e.e.code = BitVec.ofNat 32 code ∧ e.e.handle = h ∧ (x.parent = none → (t.replay r).node n = .failed) ∧ t.launches = s.launches ∧ t.mem = s.mem
    (¬ Starts → exec (.nodeStart r n) s = .next s)
    ∧ (Starts → s.graphIntact x.graph = false → exec (.nodeStart r n) s = .fault .graphWritten)
    ∧ (Starts → s.graphIntact x.graph = true → n < x.nodes.length → 2 ≤ d.type →
        ∃ t, exec (.nodeStart r n) s = .next t ∧ (t.replay r).node n = .done ∧ t.launches = s.launches ∧ t.mem = s.mem)
    ∧ (∀ e, Starts → s.graphIntact x.graph = true → n < x.nodes.length → d.type = 0 →
        s.launchError (s.queue x.queue) (launchHeader d.head (s.graph x.graph).base) = some e → Errs e own)
    ∧ (Starts → s.graphIntact x.graph = true → n < x.nodes.length → d.type = 0 →
        s.launchError (s.queue x.queue) (launchHeader d.head (s.graph x.graph).base) = none →
        ∃ t l, exec (.nodeStart r n) s = .next t ∧ (t.replay r).node n = .running ∧ (t.launch l).replay = r ∧ (t.launch l).node = n
          ∧ (t.launch l).hdr = launchHeader d.head (s.graph x.graph).base ∧ (t.launch l).asid = (s.queue x.queue).asid
          ∧ (t.launch l).param = d.param ∧ (t.launch l).counter = 0 ∧ (t.launch l).pending = []
          ∧ (t.launch l).seedPlaced = false ∧ (t.launch l).complete = false
          ∧ (let u := s.dropClean (s.queue x.queue).asid
             (t.launch l).stkn = u.astStkn (s.queue x.queue).asid ∧ (t.launch l).stksz = u.astStksz (s.queue x.queue).asid
              ∧ (t.launch l).stkbase = u.astStkbase (s.queue x.queue).asid)
          ∧ (t.launch l).pri = min (launchHeader d.head (s.graph x.graph).base).pri (getBits (s.queue x.queue).qcfg 36 3)
          ∧ (∀ c ∈ t.copies, c.node.level ≤ 1 → c.key.asid = (s.queue x.queue).asid.toNat → c.st ≠ .s ∧ c.st ≠ .e)
          ∧ t.mem = s.mem ∧ t.harts = s.harts)
    ∧ (Starts → s.graphIntact x.graph = true → n < x.nodes.length → d.type = 1 → 4 ≤ x.depth → Errs 4 own)
    ∧ (Starts → s.graphIntact x.graph = true → n < x.nodes.length → d.type = 1 → x.depth < 4 →
        (s.graphOf d.callee = none → Errs 6 d.callee)
        ∧ (∀ k, s.graphOf d.callee = some k → k ∈ x.path → Errs 5 own)
        ∧ (∀ k, s.graphOf d.callee = some k → k ∉ x.path → s.nextId ≠ r →
            (∃ m, m < nodeCount (s.graph k).image ∧ predecessors (s.graph k).image m = []) →
            ∃ t c, exec (.nodeStart r n) s = .next t ∧ (t.replay r).node n = .running ∧ (t.replay c).graph = k
              ∧ (t.replay c).depth = x.depth + 1 ∧ (t.replay c).path = x.path ++ [k] ∧ (t.replay c).parent = some (r, n)
              ∧ (t.replay c).ended = false ∧ t.mem = s.mem)))
  ∧ (∀ (s : State) (l : Nat),
    let x := s.launch l
    ((x.complete = true ∨ x.seedPlaced = false ∨ x.counter ≠ 0 ∨ ∃ c ∈ s.cmds, (s.group c.group).launch = l) →
        exec (.launchComplete l) s = .next s)
    ∧ (s.streamsDistinct → x.complete = false → x.seedPlaced = true → x.counter = 0 →
        (∀ c ∈ s.cmds, (s.group c.group).launch ≠ l) → (∀ h ∈ s.allHarts, h.pl.launch = l → h.m.stores = []) →
        x.node < (s.replay x.replay).nodes.length → (∀ c ∈ s.dirtyOf x.asid, s.poisonWaits c.key.pw = false) →
        ∃ t, exec (.launchComplete l) s = .next t ∧ (t.launch l).complete = true ∧ (t.replay x.replay).node x.node = .done
          ∧ t.cur = s.cur ∧ ((∀ c ∈ s.copies, c.key.asid ≠ x.asid.toNat) → t.mem = s.mem)))

open Sys2Proof Sys2Proof.Machine in
/-- R5, R277 to R280, R362: the arbiter, which has one turn in a clock, takes the events of one clock that is over, the oldest, in
the order of R279, numbers each, lets the warp that posted it go on, and writes it to the host's ring where there is room; what finds
none opens or extends a lost run, which a marker ends; and a register changes only in the fields that its writer writes. That the
marker's KSEQ is 0 is the model's choice (log entry 86). -/
def Obligations.EventRing : Prop :=
  (∀ l : List Event, (orderEvents l).Pairwise (fun a b => eventKey a ≤ eventKey b) ∧ (orderEvents l).Perm l)
  ∧ (∀ s : State, s.clock < s.fe.turn → exec .eventArbitration s = .next s)
  ∧ (∀ (s : State) (r : Raised), s.fe.raised = [r] → r.hart = none → memWf s.hostMem = true → s.fe.turn ≤ s.clock →
    r.at_ < s.clock →
    let full := ∀ n, s.fe.ring = some n → s.fe.evUsed = 2 ^ n
    (∀ n, s.fe.ring = some n → s.fe.pend = false → s.fe.evUsed ≠ 2 ^ n →
      let addr := s.fe.evaddr.toNat + 32 * (s.fe.evprod.toNat % 2 ^ n)
      ∃ t, exec .eventArbitration s = .next t ∧ t.fe.raised = [] ∧ t.fe.nextSeq = s.fe.nextSeq + 1
        ∧ t.fe.evprod = BitVec.ofNat 64 ((s.fe.evprod.toNat + 1) % 2 ^ 32)
        ∧ memRead t.hostMem addr 32 = eventBytes r.e s.fe.nextSeq
        ∧ t.out = s.out ++ [.hostWrite (getBits s.fe.evkey 32 24) (s.fe.evkey.truncate 32) addr (eventBytes r.e s.fe.nextSeq)]
        ∧ t.fe.evovf = s.fe.evovf ∧ { t with fe := s.fe, hostMem := s.hostMem, out := s.out } = s)
    ∧ (full → s.fe.pend = false → ∃ t, exec .eventArbitration s = .next t ∧ t.fe.raised = [] ∧ t.fe.nextSeq = s.fe.nextSeq + 1
        ∧ bit t.fe.evovf 63 = true ∧ getBits t.fe.evovf 0 32 = s.fe.nextSeq.toNat ∧ t.fe.run = 1
        ∧ getBits t.fe.evovf 32 31 = min (getBits s.fe.evovf 32 31 + 1) (2 ^ 31 - 1) ∧ { t with fe := s.fe } = s)
    ∧ (full → s.fe.pend = true → ∃ t, exec .eventArbitration s = .next t ∧ t.fe.raised = [] ∧ t.fe.nextSeq = s.fe.nextSeq + 1
        ∧ getBits t.fe.evovf 0 32 = getBits s.fe.evovf 0 32 ∧ bit t.fe.evovf 63 = true ∧ t.fe.run = s.fe.run + 1
        ∧ { t with fe := s.fe } = s))
  ∧ (∀ (s : State) (r x : Raised) (id : Nat), s.fe.turn ≤ s.clock →
    let put := fun (n k : Nat) (e : Event) => Output.hostWrite (getBits s.fe.evkey 32 24) (s.fe.evkey.truncate 32)
      (s.fe.evaddr.toNat + 32 * ((s.fe.evprod.toNat + k) % 2 ^ 32 % 2 ^ n)) (eventBytes e (s.fe.nextSeq + BitVec.ofNat 32 k))
    (s.fe.raised = [r] → r.at_ < s.clock → r.hart = some id →
      ∃ t, exec .eventArbitration s = .next t ∧ t.fe.raised = [] ∧ t.mem = s.mem
        ∧ ∀ h ∈ t.allHarts, h.id = id → ∀ w f, h.c.wait = some w → w.i ≠ .evpost f)
    ∧ (s.fe.raised = [r] → s.clock ≤ r.at_ → ∃ t, exec .eventArbitration s = .next t ∧ t.fe.raised = [r] ∧ t.mem = s.mem)
    ∧ (s.fe.raised = [r, x] → r.at_ < s.clock → r.at_ < x.at_ →
      ∃ t, exec .eventArbitration s = .next t ∧ t.fe.raised = [x] ∧ t.mem = s.mem)
    ∧ (∀ n, s.fe.raised = [r, x] → r.at_ < s.clock → x.at_ = r.at_ → eventKey x.e < eventKey r.e → s.fe.ring = some n →
      s.fe.pend = false → s.fe.evUsed + 2 ≤ 2 ^ n → s.fe.evprod.toNat < 2 ^ 32 →
      ∃ t, exec .eventArbitration s = .next t ∧ t.fe.raised = [] ∧ t.out = s.out ++ [put n 0 x.e, put n 1 r.e])
    ∧ (∀ n, s.fe.raised = [r] → r.at_ < s.clock → s.fe.ring = some n → s.fe.pend = true → s.fe.evUsed + 2 ≤ 2 ^ n →
      s.fe.evprod.toNat < 2 ^ 32 →
      ∃ t m, exec .eventArbitration s = .next t ∧ t.fe.raised = [] ∧ m.type = 7 ∧ t.fe.pend = false
        ∧ m.code = BitVec.ofNat 32 s.fe.run ∧ t.out = s.out ++ [put n 0 m, put n 1 r.e]))
  ∧ (∀ s : State,
    (s.fe.raised = [] → s.fe.turn ≤ s.clock → ∃ t, exec .overflowMarker s = .next t
      ∧ exec .eventArbitration s = .next { t with fe := { t.fe with turn := s.clock + 1 } })
    ∧ ((s.fe.pend = false ∨ ∀ n, s.fe.ring = some n → 2 ^ n ≤ s.fe.evUsed) → exec .overflowMarker s = .next s)
    ∧ (∀ n, memWf s.hostMem = true → s.fe.pend = true → s.fe.ring = some n → s.fe.evUsed < 2 ^ n →
      let e : Event := { type := 7, queue := 0xFF, node := 0xFFFF, kseq := 0, code := BitVec.ofNat 32 s.fe.run, handle := 0,
                         detail := BitVec.ofNat 64 (getBits s.fe.evovf 0 32) }
      ∃ t, exec .overflowMarker s = .next t ∧ bit t.fe.evovf 63 = false ∧ t.fe.nextSeq = s.fe.nextSeq + 1
        ∧ getBits t.fe.evovf 32 31 = getBits s.fe.evovf 32 31
        ∧ memRead t.hostMem (s.fe.evaddr.toNat + 32 * (s.fe.evprod.toNat % 2 ^ n)) 32 = eventBytes e s.fe.nextSeq
        ∧ { t with fe := s.fe, hostMem := s.hostMem, out := s.out } = s))
  ∧ (∀ (s : State) (v : Dword) (w : Writer),
    exec (.registerWrite 1 0x2020 v w) s = .next s
    ∧ exec (.registerWrite 1 0x2000 v w) s = .next (if w = .fw then { s with fe := { s.fe with evaddr := v } } else s)
    ∧ exec (.registerWrite 1 0x2018 v w) s =
        .next (if w = .sw ∨ w = .host then { s with fe := { s.fe with evcons := v &&& 0xFFFFFFFF } } else s)
    ∧ exec (.registerWrite 2 0x00 v w) s = .next s
    ∧ (w ≠ .fw → exec (.registerWrite 2 0x20 v w) s =
        .next (if w = .crown then { s with crown := { s.crown with wdog := v &&& 0xFFFFFFFF } } else s))
    ∧ (∃ t, exec (.registerWrite 2 0x20 v .fw) s = .next t
        ∧ (∀ p, t.crown.kicks.at p 0 = s.crown.kicks.at p 0 ∨ (p ∈ s.crown.released ∧ t.crown.kicks.at p 0 = s.clock / 13))
        ∧ { t with crown := s.crown, fresh := s.fresh } = s ∧ { t.crown with kicks := s.crown.kicks } = s.crown)
    ∧ exec (.registerWrite 3 0x20 v w) s = .next s
    ∧ (∃ t, exec (.registerWrite 0x17F 0 v w) s = .next t ∧ (w = .fw ∨ w = .sw → (t.cluster 127).mxcfg = v &&& 0x7FFFF)
        ∧ (w ≠ .fw → w ≠ .sw → t = s) ∧ { t with clusters := s.clusters } = s)
    ∧ (∃ t, exec (.registerWrite 1 0x1000 v w) s = .next t ∧ (w ≠ .fw → w ≠ .sw → t = s) ∧ { t with queues := s.queues } = s))

/-! ### Crown (R325 to R329) -/

open Sys2Proof Sys2Proof.Machine in
/-- R325 to R329: what a start keeps and clears, the measured release of the images, watchdogs, updates with their trial, and
the messages of attestation. Digests and signatures are free values (log entry 16); what a warm start keeps, which slot an
update takes while the golden one is active and how the record of the front end's work is read back are log entry 30, that CMD = 1 does
nothing in the other states log entry 89, the messages' bytes and the transcripts log entry 31. -/
def Obligations.Crown : Prop :=
  ∀ s : State,
    let c := s.crown
    let now := s.clock / 13
    let good := fun (p : Part) => Config.slhVerify p.key p.sig p.code = true ∧ Config.sha256 p.key = c.fuseKey ∧ c.fuseMin ≤ p.secver
    let takes := fun (m : Image) => ∀ k, k < 3 → ∃ p, m.parts[k]? = some p ∧ good p
    let all := [0, 1, 2, 3, 4, 5]
    let img := if 3 ≤ c.flashFails then c.golden else c.slot c.flashActive
    let Boots := fun (hbm : Bool) (t : State) => t.powered = true ∧ t.harts = [] ∧ t.cur = Hart.idle ∧ t.copies = [] ∧ t.tlb = []
      ∧ t.queues = [] ∧ t.hostMem = s.hostMem ∧ t.clock = 0
      ∧ (∀ a, memGet t.mem a = if a / 2 ^ 60 = 1 ∨ a / 2 ^ 60 = 2 ∨ (hbm = true ∧ a / 2 ^ 60 = 0) then memGet s.mem a else 0)
      ∧ t.crown.flashFails = min (c.flashFails + 1) 255 ∧ t.crown.flashActive = c.flashActive
      ∧ getBits t.crown.fwstat 4 4 = (if 3 ≤ c.flashFails then 4 else 0) ∧ getBits t.crown.fwstat 16 8 = img.ctxVer % 256
      ∧ (∀ k p, k < 3 → img.parts[k]? = some p → t.crown.meas.at (3 + k) 0 = Config.sha256 p.code)
      ∧ (takes img → t.crown.released = all ∧ t.crown.startAt = some 0)
      ∧ (¬ takes img → t.crown.released = [] ∧ t.crown.startAt = none)
    (∃ t, exec .coldStart s = .next t ∧ Boots false t ∧ t.fe.nextSeq = 0
        ∧ t.crown.meas.at 1 0 = Config.sha256 Config.crownRom ∧ t.crown.meas.at 2 0 = Config.sha256 c.fuseValues)
    ∧ (s.powered = false → exec .warmStart s = .next s)
    ∧ (s.powered = true → ∃ t, exec .warmStart s = .next t ∧ Boots true t ∧ t.fe.nextSeq = s.fe.nextSeq)
    ∧ (∃ t, exec .powerLoss s = .next t ∧ t.powered = false ∧ t.harts = [] ∧ t.cur = Hart.idle ∧ t.crown.released = []
        ∧ t.crown.flashFails = c.flashFails ∧ t.crown.flashActive = c.flashActive ∧ t.crown.golden = c.golden
        ∧ t.crown.slotA = c.slotA ∧ t.crown.slotB = c.slotB ∧ t.hostMem = s.hostMem
        ∧ ∀ a, memGet t.mem a = if a / 2 ^ 60 = 1 ∨ a / 2 ^ 60 = 2 then memGet s.mem a else 0)
    ∧ (let fails : State := { s with crown := { c with startAt := none, released := [] } }
       (s.powered = false → exec .readyUp s = .next s)
       ∧ (s.powered = true → c.startAt = none → exec .readyUp s = .next { s with crown := { c with readyUp := true } })
       ∧ (∀ x, s.powered = true → c.startAt = some x → x + 3000000000 ≤ now → exec .readyUp s = .next fails)
       ∧ (∀ x, s.powered = true → c.startAt = some x → now < x + 3000000000 → ∃ t, exec .readyUp s = .next t
          ∧ t.crown.readyUp = true ∧ t.crown.startAt = none ∧ t.crown.flashFails = 0 ∧ t.crown.flashActive = c.flashActive
          ∧ getBits t.crown.fwstat 4 4 = (if getBits c.fwstat 4 4 = 0 then 1 else getBits c.fwstat 4 4)
          ∧ t.crown.released = c.released ∧ (∀ k, k ≠ 6 → k ≠ 7 → t.crown.meas.at k 0 = c.meas.at k 0) ∧ { t with crown := c } = s)
       ∧ ((∀ x, c.startAt = some x → now < x + 3000000000) → exec .startTimeout s = .next s)
       ∧ (∀ x, c.startAt = some x → x + 3000000000 ≤ now → exec .startTimeout s = .next fails))
    ∧ (∀ p,
        let late := c.kicks.at p 0 + c.wdog.toNat ≤ now
        (p ∉ c.released → exec (.wdogKick p) s = .next s ∧ exec (.watchdogExpiry p) s = .next s)
        ∧ (p ∈ c.released → ¬ late → ∃ t, exec (.wdogKick p) s = .next t ∧ t.crown.kicks.at p 0 = now
            ∧ (∀ k, k ≠ p → t.crown.kicks.at k 0 = c.kicks.at k 0) ∧ { t with crown := { t.crown with kicks := c.kicks } } = s)
        ∧ (late → exec (.wdogKick p) s = .next s)
        ∧ (¬ late → exec (.watchdogExpiry p) s = .next s)
        ∧ (p ∈ c.released → late →
          (c.startAt ≠ none → exec (.watchdogExpiry p) s = .next { s with crown := { c with startAt := none, released := [] } })
          ∧ (c.startAt = none →
            let st := getBits c.fwstat 4 4
            let part := (c.slot (if st = 4 then 0 else if st = 2 then c.inactive else c.flashActive)).parts[procImage p]?
            ∃ t, exec (.watchdogExpiry p) s = .next t ∧ { t with crown := c } = s
              ∧ (p ∈ t.crown.released ↔ ∃ x, part = some x ∧ good x)
              ∧ ∀ k, k ≠ p → (k ∈ t.crown.released ↔ k ∈ c.released))))
    ∧ (let st := getBits c.fwstat 4 4
       let next := c.slot c.inactive
       ((s.powered = false ∨ (st ≠ 1 ∧ st ≠ 5)) → exec .fwctlUpdate s = .next s)
       ∧ (st = 1 → getBits c.fwstat 16 8 ∉ next.accepts → exec .fwctlUpdate s = .next s)
       ∧ (s.powered = true → st = 1 → getBits c.fwstat 16 8 ∈ next.accepts → ∃ t, exec .fwctlUpdate s = .next t
          ∧ getBits t.crown.fwstat 4 4 = 5 ∧ t.fe.quiesce = true ∧ t.mem = s.mem
          ∧ ∀ p ∈ s.gangs, (t.gang p.1).saveAsked = true ∨ t.gangIn p.1 .resident = [])
       ∧ (s.powered = true → st = 5 → (∃ p ∈ s.groups, p.2.phase = .resident ∨ p.2.phase = .saving) →
          exec .fwctlUpdate s = .next s)
       ∧ (s.powered = true → st = 5 → (∀ p ∈ s.groups, p.2.phase = .saved ∨ p.2.phase = .ended) →
          ∃ t, exec .fwctlUpdate s = .next t
            ∧ (takes next → getBits t.crown.fwstat 4 4 = 2 ∧ t.crown.released = all ∧ t.crown.trialAt = some now
                ∧ t.crown.prevSlot = c.flashActive
                ∧ (∃ w, t.fe = { s.fe with record := some w } ∧ w.version = getBits c.fwstat 16 8 ∧ w.queues = s.queues
                    ∧ w.pending = s.launches.map (fun p => (p.1, p.2.pending)) ∧ w.replays = s.replays)
                ∧ ∀ h ∈ t.allHarts, h.role = .bowler → h.live = false)
            ∧ (¬ takes next → getBits t.crown.fwstat 4 4 = 1 ∧ t.crown.trialAt = c.trialAt ∧ t.fe.quiesce = false
                ∧ (takes (c.slot c.flashActive) → t.crown.released = all))
            ∧ t.crown.flashActive = c.flashActive)
       ∧ ((c.trialAt = none ∨ st ≠ 2) → exec .commitGo s = .next s ∧ exec .trialExpiry s = .next s)
       ∧ (∀ x, c.trialAt = some x → st = 2 →
          (x + c.trial.toNat ≤ now → exec .commitGo s = .next s)
          ∧ (now < x + c.trial.toNat → exec .trialExpiry s = .next s)
          ∧ (now < x + c.trial.toNat → ∃ t, exec .commitGo s = .next t ∧ t.crown.flashActive = c.inactive
              ∧ getBits t.crown.fwstat 4 4 = 1 ∧ getBits t.crown.fwstat 16 8 = next.ctxVer % 256 ∧ t.crown.trialAt = none
              ∧ t.fe.quiesce = false ∧ t.crown.released = c.released
              ∧ t.replays = s.replays ∧ t.queues = s.queues ∧ (∀ l, (t.launch l).pending = (s.launch l).pending)
              ∧ (∀ w, s.fe.record = some w → w.version ∈ next.accepts → t.fe.record = none))
          ∧ (x + c.trial.toNat ≤ now → ∃ t, exec .trialExpiry s = .next t ∧ t.crown.flashActive = c.flashActive
              ∧ t.crown.trialAt = none
              ∧ (takes (c.slot c.prevSlot) → getBits t.crown.fwstat 4 4 = 1 ∧ t.crown.released = all ∧ t.fe.quiesce = false)
              ∧ (¬ takes (c.slot c.prevSlot) → getBits t.crown.fwstat 4 4 = 3 ∧ t.fe = s.fe))))
    ∧ (let Says := fun (i : Instr) (m : List Byte) (k : Machine.Crown) => ∃ t, exec i s = .next t
          ∧ t.out = s.out ++ [.spdm m] ∧ t.crown = k ∧ { t with crown := c, out := s.out, fresh := s.fresh } = s
       let early := [0x13, 0x7F, 4, 0]
       let wrong := [0x13, 0x7F, 1, 0]
       let chain := Config.certificateChain
       let digest := leBytes 48 (Config.sha384 chain).toNat
       let mine := leBytes 32 (Config.freeChoice s.fresh)
       let Later := fun (i : Instr) (request m : List Byte) => Says i m { c with challenges := c.challenges ++ request ++ m }
       Says .spdmGetVersion [0x10, 0x04, 0, 0, 0, 1, 0x00, 0x13]
          { c with negotiated := false, transcript := [0x10, 0x84, 0, 0, 0x10, 0x04, 0, 0, 0, 1, 0x00, 0x13], challenges := [] }
       ∧ (let raw := Config.spdmRequest s.fresh
          let m := [0x13, 0x61, 0, 0, 0] ++ leBytes 1 (Config.spdmSize 0) ++ [0, 0] ++ leBytes 4 Config.spdmCapabilities.toNat
              ++ leBytes 4 (Config.spdmSize 1) ++ leBytes 4 (Config.spdmSize 2)
          Says .spdmGetCapabilities m { c with transcript := c.transcript ++ [0x13, 0xE1] ++ raw ++ m })
       ∧ (∀ raw, let m := [0x13, 0x63, 0, 0, 36, 0, 1, 0, 2, 0, 0, 0, 0x80, 0, 0, 0, 2, 0, 0, 0] ++ List.replicate 16 (0 : Byte)
          Says (.spdmNegotiateAlgorithms { ecdsaP384 := true, sha384 := true, sha256 := true, raw := raw }) m
            { c with negotiated := true, transcript := c.transcript ++ [0x13, 0xE3] ++ raw ++ m })
       ∧ (∀ o : SpdmOffer, (o.ecdsaP384 = false ∨ o.sha384 = false ∨ o.sha256 = false) →
          Says (.spdmNegotiateAlgorithms o) wrong c)
       ∧ (c.negotiated = false → Says .spdmGetDigests early c ∧ (∀ k o n, Says (.spdmGetCertificate k o n) early c)
          ∧ (∀ k x, Says (.spdmChallenge k x) early c) ∧ (∀ k x, Says (.spdmGetMeasurements k x) early c))
       ∧ (c.negotiated = true → Later .spdmGetDigests [0x13, 0x81, 0, 0] ([0x13, 0x01, 1, 1] ++ digest)
          ∧ (∀ o n, o ≤ chain.length → let part := (chain.drop o).take n
              Later (.spdmGetCertificate 0 o n) ([0x13, 0x82, 0, 0] ++ leBytes 2 o ++ leBytes 2 n)
                ([0x13, 0x02, 0, 0] ++ leBytes 2 part.length ++ leBytes 2 (chain.length - o - part.length) ++ part))
          ∧ (∀ k o n, (k ≠ 0 ∨ chain.length < o) → Says (.spdmGetCertificate k o n) wrong c)
          ∧ (∀ n x, let m := [0x13, 0x03, 0, 1] ++ digest ++ mine ++ [0, 0] ++ x
              let msgs := c.transcript ++ c.challenges ++ ([0x13, 0x83, 0, 0] ++ n ++ x) ++ m
              Says (.spdmChallenge 0 ⟨n, x⟩) (m ++ Config.ecdsaSign (spdmSigned "responder-challenge_auth signing" msgs))
                { c with challenges := [] })
          ∧ (∀ k x, k ≠ 0 → Says (.spdmChallenge k x) wrong c)
          ∧ (let Measures := fun (k count : Nat) (blocks n x : List Byte) (number : Nat) =>
               let m := [0x13, 0x60] ++ leBytes 1 count ++ [0] ++ leBytes 1 number ++ leBytes 3 blocks.length ++ blocks ++ mine ++ [0, 0] ++ x
               let msgs := c.transcript ++ ([0x13, 0xE0, 1] ++ leBytes 1 k ++ n ++ [0] ++ x) ++ m
               Says (.spdmGetMeasurements k ⟨n, x⟩) (m ++ Config.ecdsaSign (spdmSigned "responder-measurements signing" msgs)) c
             (∀ n x, Measures 0 c.meas.length [] n x 0)
             ∧ (∀ n x, Measures 255 0 (c.meas.flatMap (fun y => measBlock y.1 y.2)) n x c.meas.length)
             ∧ (∀ k d n x, k ≠ 0 → k ≠ 255 → c.meas.filter (fun y => y.1 == k) = [(k, d)] → Measures k 0 (measBlock k d) n x 1))
          ∧ (∀ k x, k ≠ 0 → k ≠ 255 → c.meas.filter (fun y => y.1 == k) = [] → Says (.spdmGetMeasurements k x) wrong c)))

/-! ### Pairs and the numbers of streams (R59, R62) -/

open Sys2Proof Sys2Proof.Machine in
/-- R59, R60, R62: a pair whose two instructions are legal together and meet no wait is one step: both read the state before
it, and both write, or the lowest slot that traps names the trap and neither writes a register. A pair whose second word alone
is ILLEGAL records that slot's own reason (log entry 69). -/
def Obligations.Pairs : Prop :=
  (∀ (s : State) (i : Instr) (g : Guard) (k : Hart → VRes),
    let on := laneMask s.cur g ≠ 0
    let v := k s.cur
    (¬ on → pairHalf i g k s = .idle)
    ∧ (on → emptyTrap (uses i) s.cur.r = true → pairHalf i g k s = .trap { cls := 2 } 0)
    ∧ (∀ c, on → emptyTrap (uses i) s.cur.r = false → sourceTrap (uses i) s = some c → pairHalf i g k s = .trap c 0)
    ∧ (on → emptyTrap (uses i) s.cur.r = false → sourceTrap (uses i) s = none →
        (∀ c, v.trap = some c → pairHalf i g k s = .trap c 0)
        ∧ (v.trap = none → flgTraps s.cur.y.flg v.flags = true → pairHalf i g k s = .trap (arithCause v.flags) v.flags)
        ∧ (v.trap = none → flgTraps s.cur.y.flg v.flags = false → pairHalf i g k s = .res v)))
  ∧ (∀ (s : State) (w0 w1 : BitVec 96) (i : Instr), decode w0 = .ok i → pairClass w0 = true → pairClass w1 = true →
    settled s.cur = true → illegalHere i s = none →
    (∀ r, decode w1 = .error r →
      execPair w0 w1 s = .next (s.takeTrap { cls := 0, reason := r.code, second := true } (wordForm w1).1 (wordForm w1).2))
    ∧ (∀ j, decode w1 = .ok j → pairLegal i j = false →
      execPair w0 w1 s = .next (s.takeTrap { cls := 0, reason := 7 } (wordForm w0).1 (wordForm w0).2))
    ∧ (∀ j r, decode w1 = .ok j → pairLegal i j = true → illegalHere j s = some r →
      execPair w0 w1 s = .next (s.takeTrap { cls := 0, reason := r, second := true } (wordForm w1).1 (wordForm w1).2)))
  ∧ (∀ (s : State) (w0 w1 : BitVec 96) (i j : Instr) (gi gj : Guard) (ki kj : Hart → VRes),
    decode w0 = .ok i → decode w1 = .ok j → pairClass w0 = true → pairClass w1 = true → vecFn i = some (gi, ki) →
    vecFn j = some (gj, kj) → settled s.cur = true → illegalHere i s = none → illegalHere j s = none → pairLegal i j = true →
    let oni := laneMask s.cur gi ≠ 0
    let onj := laneMask s.cur gj ≠ 0
    let a := pairHalf i gi ki s
    let b := pairHalf j gj kj s
    let waits := loadWait i s.cur = true ∨ (oni ∧ blockWait (uses i) s.cur.r = true) ∨ (onj ∧ blockWait (uses j) s.cur.r = true)
    let Done := fun (r : Regs) (flg : Dword) => ∃ t, execPair w0 w1 s = .next t ∧ t.cur.r = r ∧ t.cur.y.flg = flg
      ∧ t.cur.c.pc = nextPc (nextPc s.cur.c.pc) ∧ t.cur.c.issued = s.cur.c.issued + 2 ∧ t.picked = false
      ∧ OthersKept s t ∧ HartKeptButFlags s.cur t.cur
    (waits → execPair w0 w1 s = .next { s with picked := false })
    ∧ (¬ waits →
      (∀ x y, a = .res x → b = .res y →
        Done (y.write (x.write s.cur.r)) (s.cur.y.flg ||| x.flags.setWidth 64 ||| y.flags.setWidth 64))
      ∧ (∀ x, a = .res x → b = .idle → Done (x.write s.cur.r) (s.cur.y.flg ||| x.flags.setWidth 64))
      ∧ (∀ y, a = .idle → b = .res y → Done (y.write s.cur.r) (s.cur.y.flg ||| y.flags.setWidth 64))
      ∧ (a = .idle → b = .idle → Done s.cur.r s.cur.y.flg)
      ∧ (∀ c fa d fb, a = .trap c fa → b = .trap d fb → execPair w0 w1 s =
          .next ((s.addFlags (fa ||| fb)).takeTrap { c with second := false } (wordForm w0).1 (wordForm w0).2))
      ∧ (∀ c fa, a = .trap c fa → (∀ d fb, b ≠ .trap d fb) → execPair w0 w1 s =
          .next ((s.addFlags fa).takeTrap { c with second := false } (wordForm w0).1 (wordForm w0).2))
      ∧ (∀ d fb, (∀ c fa, a ≠ .trap c fa) → b = .trap d fb → execPair w0 w1 s =
          .next ((s.addFlags fb).takeTrap { d with second := true } (wordForm w1).1 (wordForm w1).2))))
end

