-- ==== Sys2Proof/Laws/Encoding.lean ====
section
/-!
SUPPORT. The nine formats as pairs of functions: each decoder gives back what its encoder was given, each encoder gives back a
word of its format, and the top ten bits are the function code.
-/

namespace Sys2Proof

/-! ### Slices of concatenations -/

theorem take_high {m n lo len : Nat} (x : BitVec m) (y : BitVec n) (h : n ≤ lo) :
    (x ++ y).extractLsb' lo len = x.extractLsb' (lo - n) len := by
  apply BitVec.eq_of_getLsbD_eq; intro i hi
  rw [BitVec.getLsbD_extractLsb', BitVec.getLsbD_extractLsb', BitVec.getLsbD_append, if_neg (by omega)]
  congr 2; omega

theorem take_low {m n : Nat} (x : BitVec m) (y : BitVec n) : (x ++ y).extractLsb' 0 n = y := by
  apply BitVec.eq_of_getLsbD_eq; intro i hi
  rw [BitVec.getLsbD_extractLsb', BitVec.getLsbD_append, if_pos (by omega)]; simp [hi]

theorem take_all {n : Nat} (x : BitVec n) : x.extractLsb' 0 n = x := by
  apply BitVec.eq_of_getLsbD_eq; intro i hi
  rw [BitVec.getLsbD_extractLsb']; simp [hi]

theorem take_cast {m n lo len : Nat} (h : m = n) (x : BitVec m) :
    (BitVec.cast h x).extractLsb' lo len = x.extractLsb' lo len := by subst h; rfl

theorem bit_high {m n i : Nat} (x : BitVec m) (y : BitVec n) (h : n ≤ i) : (x ++ y).getLsbD i = x.getLsbD (i - n) := by
  rw [BitVec.getLsbD_append, if_neg (by omega)]

theorem bit_low {m : Nat} (x : BitVec m) (b : Bool) : (x ++ BitVec.ofBool b).getLsbD 0 = b := by
  rw [BitVec.getLsbD_append, if_pos (by omega)]; cases b <;> rfl

theorem bit_cast {m n i : Nat} (h : m = n) (x : BitVec m) : (BitVec.cast h x).getLsbD i = x.getLsbD i := by subst h; rfl

theorem take_join {k m n a b : Nat} (w : BitVec k) (h : a = b + n) :
    w.extractLsb' a m ++ w.extractLsb' b n = w.extractLsb' b (m + n) := by
  subst h
  apply BitVec.eq_of_getLsbD_eq; intro i hi
  rw [BitVec.getLsbD_append]
  simp only [BitVec.getLsbD_extractLsb']
  by_cases h : i < n
  · simp [h, hi]
  · have e : b + n + (i - n) = b + i := by omega
    have h2 : i - n < m := by omega
    simp [h, hi, e, h2]

theorem take_one {k : Nat} (w : BitVec k) (i : Nat) : BitVec.ofBool (w.getLsbD i) = w.extractLsb' i 1 := by
  apply BitVec.eq_of_getLsbD_eq; intro j hj
  have : j = 0 := by omega
  subst this
  simp

theorem take_zero {k : Nat} (w : BitVec k) (n : Nat) (h : w.toNat % 2 ^ n = 0) : 0#n = w.extractLsb' 0 n := by
  apply BitVec.eq_of_toNat_eq
  simp [h]

theorem cast_take {k n : Nat} (w : BitVec k) (h : n = k) : BitVec.cast h (w.extractLsb' 0 n) = w := by
  subst h; exact take_all w

/-! ### The coded fields -/

theorem stOf_stCode (t : STy) : stOf (stCode t) = t := by cases t <;> rfl
theorem ordOf_ordCode (o : Order) : ordOf (ordCode o) = o := by cases o <;> rfl
theorem scopeOfCode_scopeCode (s : Scope) : scopeOfCode (scopeCode s) = s := by cases s <;> rfl
theorem stCode_stOf (b : BitVec 3) : stCode (stOf b) = b := by revert b; decide
theorem ordCode_ordOf (b : BitVec 2) : ordCode (ordOf b) = b := by revert b; decide
theorem scopeCode_scopeOfCode (b : BitVec 3) : scopeCode (scopeOfCode b) = b := by revert b; decide

/-! ### The formats -/

theorem decV3_encV3 (c : BitVec 10) (f : V3) : decV3 (encV3 c f) = f := by
  simp (disch := decide) only [decV3, guardOf, encV3, take_cast, bit_cast, take_high, bit_high, take_low, bit_low,
    Nat.reduceSub]

theorem code_encV3 (c : BitVec 10) (f : V3) : (encV3 c f).extractLsb' 86 10 = c := by
  simp (disch := decide) only [encV3, take_cast, take_high, take_all, Nat.reduceSub]

theorem low_encV3 (c : BitVec 10) (f : V3) : (encV3 c f).toNat % 2 ^ 18 = 0 := by
  have h : (encV3 c f).extractLsb' 0 18 = 0#18 := by simp only [encV3, take_cast, take_low]
  simpa using congrArg BitVec.toNat h

theorem guard_encV3 (c : BitVec 10) (f : V3) : guardOf (encV3 c f) = f.g := by
  simp (disch := decide) only [guardOf, encV3, take_cast, bit_cast, take_high, bit_high, take_low, bit_low, Nat.reduceSub]

theorem encV3_decV3 (c : BitVec 10) (w : BitVec 96) (hc : w.extractLsb' 86 10 = c) (hl : w.toNat % 2 ^ 18 = 0) :
    encV3 c (decV3 w) = w := by
  subst hc
  unfold encV3 decV3 guardOf
  rw [take_zero w 18 hl]
  simp (disch := decide) only [take_one, take_join]
  exact cast_take w rfl

theorem decV2I_encV2I (c : BitVec 10) (f : V2I) : decV2I (encV2I c f) = f := by
  simp (disch := decide) only [decV2I, guardOf, encV2I, take_cast, bit_cast, take_high, bit_high, take_low, bit_low,
    Nat.reduceSub]

theorem code_encV2I (c : BitVec 10) (f : V2I) : (encV2I c f).extractLsb' 86 10 = c := by
  simp (disch := decide) only [encV2I, take_cast, take_high, take_all, Nat.reduceSub]

theorem low_encV2I (c : BitVec 10) (f : V2I) : (encV2I c f).toNat % 2 ^ 9 = 0 := by
  have h : (encV2I c f).extractLsb' 0 9 = 0#9 := by simp only [encV2I, take_cast, take_low]
  simpa using congrArg BitVec.toNat h

theorem guard_encV2I (c : BitVec 10) (f : V2I) : guardOf (encV2I c f) = f.g := by
  simp (disch := decide) only [guardOf, encV2I, take_cast, bit_cast, take_high, bit_high, take_low, bit_low, Nat.reduceSub]

theorem encV2I_decV2I (c : BitVec 10) (w : BitVec 96) (hc : w.extractLsb' 86 10 = c) (hl : w.toNat % 2 ^ 9 = 0) :
    encV2I c (decV2I w) = w := by
  subst hc
  unfold encV2I decV2I guardOf
  rw [take_zero w 9 hl]
  simp (disch := decide) only [take_one, take_join]
  exact cast_take w rfl

theorem decS3_encS3 (c : BitVec 10) (f : S3) : decS3 (encS3 c f) = f := by
  simp (disch := decide) only [decS3, guardOf, encS3, take_cast, bit_cast, take_high, bit_high, take_low, bit_low,
    Nat.reduceSub, stOf_stCode]

theorem code_encS3 (c : BitVec 10) (f : S3) : (encS3 c f).extractLsb' 86 10 = c := by
  simp (disch := decide) only [encS3, take_cast, take_high, take_all, Nat.reduceSub]

theorem low_encS3 (c : BitVec 10) (f : S3) : (encS3 c f).toNat % 2 ^ 32 = 0 := by
  have h : (encS3 c f).extractLsb' 0 32 = 0#32 := by simp only [encS3, take_cast, take_low]
  simpa using congrArg BitVec.toNat h

theorem guard_encS3 (c : BitVec 10) (f : S3) : guardOf (encS3 c f) = f.g := by
  simp (disch := decide) only [guardOf, encS3, take_cast, bit_cast, take_high, bit_high, take_low, bit_low, Nat.reduceSub]

theorem encS3_decS3 (c : BitVec 10) (w : BitVec 96) (hc : w.extractLsb' 86 10 = c) (hl : w.toNat % 2 ^ 32 = 0) :
    encS3 c (decS3 w) = w := by
  subst hc
  unfold encS3 decS3 guardOf
  rw [take_zero w 32 hl]
  simp (disch := decide) only [take_one, take_join, stCode_stOf]
  exact cast_take w rfl

theorem decSI_encSI (c : BitVec 10) (f : SI) : decSI (encSI c f) = f := by
  simp (disch := decide) only [decSI, guardOf, encSI, take_cast, bit_cast, take_high, bit_high, take_low, bit_low,
    Nat.reduceSub, stOf_stCode]

theorem code_encSI (c : BitVec 10) (f : SI) : (encSI c f).extractLsb' 86 10 = c := by
  simp (disch := decide) only [encSI, take_cast, take_high, take_all, Nat.reduceSub]

theorem low_encSI (c : BitVec 10) (f : SI) : (encSI c f).toNat % 2 ^ 7 = 0 := by
  have h : (encSI c f).extractLsb' 0 7 = 0#7 := by simp only [encSI, take_cast, take_low]
  simpa using congrArg BitVec.toNat h

theorem guard_encSI (c : BitVec 10) (f : SI) : guardOf (encSI c f) = f.g := by
  simp (disch := decide) only [guardOf, encSI, take_cast, bit_cast, take_high, bit_high, take_low, bit_low, Nat.reduceSub]

theorem encSI_decSI (c : BitVec 10) (w : BitVec 96) (hc : w.extractLsb' 86 10 = c) (hl : w.toNat % 2 ^ 7 = 0) :
    encSI c (decSI w) = w := by
  subst hc
  unfold encSI decSI guardOf
  rw [take_zero w 7 hl]
  simp (disch := decide) only [take_one, take_join, stCode_stOf]
  exact cast_take w rfl

theorem decFM_encFM (c : BitVec 10) (f : FM) : decFM (encFM c f) = f := by
  simp (disch := decide) only [decFM, guardOf, encFM, take_cast, bit_cast, take_high, bit_high, take_low, bit_low,
    Nat.reduceSub, ordOf_ordCode, scopeOfCode_scopeCode]

theorem code_encFM (c : BitVec 10) (f : FM) : (encFM c f).extractLsb' 86 10 = c := by
  simp (disch := decide) only [encFM, take_cast, take_high, take_all, Nat.reduceSub]

theorem low_encFM (c : BitVec 10) (f : FM) : (encFM c f).toNat % 2 ^ 2 = 0 := by
  have h : (encFM c f).extractLsb' 0 2 = 0#2 := by simp only [encFM, take_cast, take_low]
  simpa using congrArg BitVec.toNat h

theorem guard_encFM (c : BitVec 10) (f : FM) : guardOf (encFM c f) = f.g := by
  simp (disch := decide) only [guardOf, encFM, take_cast, bit_cast, take_high, bit_high, take_low, bit_low, Nat.reduceSub]

theorem encFM_decFM (c : BitVec 10) (w : BitVec 96) (hc : w.extractLsb' 86 10 = c) (hl : w.toNat % 2 ^ 2 = 0) :
    encFM c (decFM w) = w := by
  subst hc
  unfold encFM decFM guardOf
  rw [take_zero w 2 hl]
  simp (disch := decide) only [take_one, take_join, ordCode_ordOf, scopeCode_scopeOfCode]
  exact cast_take w rfl

theorem decFB_encFB (c : BitVec 10) (f : FB) : decFB (encFB c f) = f := by
  simp (disch := decide) only [decFB, guardOf, encFB, take_cast, bit_cast, take_high, bit_high, take_low, bit_low,
    Nat.reduceSub]

theorem code_encFB (c : BitVec 10) (f : FB) : (encFB c f).extractLsb' 86 10 = c := by
  simp (disch := decide) only [encFB, take_cast, take_high, take_all, Nat.reduceSub]

theorem low_encFB (c : BitVec 10) (f : FB) : (encFB c f).toNat % 2 ^ 12 = 0 := by
  have h : (encFB c f).extractLsb' 0 12 = 0#12 := by simp only [encFB, take_cast, take_low]
  simpa using congrArg BitVec.toNat h

theorem guard_encFB (c : BitVec 10) (f : FB) : guardOf (encFB c f) = f.g := by
  simp (disch := decide) only [guardOf, encFB, take_cast, bit_cast, take_high, bit_high, take_low, bit_low, Nat.reduceSub]

theorem encFB_decFB (c : BitVec 10) (w : BitVec 96) (hc : w.extractLsb' 86 10 = c) (hl : w.toNat % 2 ^ 12 = 0) :
    encFB c (decFB w) = w := by
  subst hc
  unfold encFB decFB guardOf
  rw [take_zero w 12 hl]
  simp (disch := decide) only [take_one, take_join]
  exact cast_take w rfl

theorem decFX_encFX (c : BitVec 10) (f : FX) : decFX (encFX c f) = f := by
  simp (disch := decide) only [decFX, guardOf, encFX, take_cast, bit_cast, take_high, bit_high, take_low, bit_low,
    Nat.reduceSub]

theorem code_encFX (c : BitVec 10) (f : FX) : (encFX c f).extractLsb' 86 10 = c := by
  simp (disch := decide) only [encFX, take_cast, take_high, take_all, Nat.reduceSub]

theorem low_encFX (c : BitVec 10) (f : FX) : (encFX c f).toNat % 2 ^ 22 = 0 := by
  have h : (encFX c f).extractLsb' 0 22 = 0#22 := by simp only [encFX, take_cast, take_low]
  simpa using congrArg BitVec.toNat h

theorem guard_encFX (c : BitVec 10) (f : FX) : guardOf (encFX c f) = f.g := by
  simp (disch := decide) only [guardOf, encFX, take_cast, bit_cast, take_high, bit_high, take_low, bit_low, Nat.reduceSub]

theorem encFX_decFX (c : BitVec 10) (w : BitVec 96) (hc : w.extractLsb' 86 10 = c) (hl : w.toNat % 2 ^ 22 = 0) :
    encFX c (decFX w) = w := by
  subst hc
  unfold encFX decFX guardOf
  rw [take_zero w 22 hl]
  simp (disch := decide) only [take_one, take_join]
  exact cast_take w rfl

theorem decFA_encFA (c : BitVec 10) (f : FA) : decFA (encFA c f) = f := by
  simp (disch := decide) only [decFA, guardOf, encFA, take_cast, bit_cast, take_high, bit_high, take_low, bit_low,
    Nat.reduceSub, ordOf_ordCode, scopeOfCode_scopeCode]

theorem code_encFA (c : BitVec 10) (f : FA) : (encFA c f).extractLsb' 86 10 = c := by
  simp (disch := decide) only [encFA, take_cast, take_high, take_all, Nat.reduceSub]

theorem low_encFA (c : BitVec 10) (f : FA) : (encFA c f).toNat % 2 ^ 4 = 0 := by
  have h : (encFA c f).extractLsb' 0 4 = 0#4 := by simp only [encFA, take_cast, take_low]
  simpa using congrArg BitVec.toNat h

theorem guard_encFA (c : BitVec 10) (f : FA) : guardOf (encFA c f) = f.g := by
  simp (disch := decide) only [guardOf, encFA, take_cast, bit_cast, take_high, bit_high, take_low, bit_low, Nat.reduceSub]

theorem encFA_decFA (c : BitVec 10) (w : BitVec 96) (hc : w.extractLsb' 86 10 = c) (hl : w.toNat % 2 ^ 4 = 0) :
    encFA c (decFA w) = w := by
  subst hc
  unfold encFA decFA guardOf
  rw [take_zero w 4 hl]
  simp (disch := decide) only [take_one, take_join, ordCode_ordOf, scopeCode_scopeOfCode]
  exact cast_take w rfl

theorem decFMX_encFMX (c : BitVec 10) (f : FMX) : decFMX (encFMX c f) = f := by
  simp (disch := decide) only [decFMX, guardOf, encFMX, take_cast, bit_cast, take_high, bit_high, take_low, bit_low,
    Nat.reduceSub]

theorem code_encFMX (c : BitVec 10) (f : FMX) : (encFMX c f).extractLsb' 86 10 = c := by
  simp (disch := decide) only [encFMX, take_cast, take_high, take_all, Nat.reduceSub]

theorem low_encFMX (c : BitVec 10) (f : FMX) : (encFMX c f).toNat % 2 ^ 17 = 0 := by
  have h : (encFMX c f).extractLsb' 0 17 = 0#17 := by simp only [encFMX, take_cast, take_low]
  simpa using congrArg BitVec.toNat h

theorem guard_encFMX (c : BitVec 10) (f : FMX) : guardOf (encFMX c f) = f.g := by
  simp (disch := decide) only [guardOf, encFMX, take_cast, bit_cast, take_high, bit_high, take_low, bit_low, Nat.reduceSub]

theorem encFMX_decFMX (c : BitVec 10) (w : BitVec 96) (hc : w.extractLsb' 86 10 = c) (hl : w.toNat % 2 ^ 17 = 0) :
    encFMX c (decFMX w) = w := by
  subst hc
  unfold encFMX decFMX guardOf
  rw [take_zero w 17 hl]
  simp (disch := decide) only [take_one, take_join]
  exact cast_take w rfl

end Sys2Proof
end

