-- ==== Sys2Proof/Laws/State.lean ====
section
/-!
SUPPORT. The fields of the state after each named update, one lemma a field, so that no proof unfolds a record update.
-/

namespace Sys2Proof.Machine


/-! ### mapCur -/

@[simp] theorem State.mapCur_cur (s : State) (f : Hart → Hart) : (s.mapCur f).cur = f s.cur := rfl
@[simp] theorem State.mapCur_picked (s : State) (f : Hart → Hart) : (s.mapCur f).picked = s.picked := rfl
@[simp] theorem State.mapCur_harts (s : State) (f : Hart → Hart) : (s.mapCur f).harts = s.harts := rfl
@[simp] theorem State.mapCur_groups (s : State) (f : Hart → Hart) : (s.mapCur f).groups = s.groups := rfl
@[simp] theorem State.mapCur_gangs (s : State) (f : Hart → Hart) : (s.mapCur f).gangs = s.gangs := rfl
@[simp] theorem State.mapCur_launches (s : State) (f : Hart → Hart) : (s.mapCur f).launches = s.launches := rfl
@[simp] theorem State.mapCur_clusters (s : State) (f : Hart → Hart) : (s.mapCur f).clusters = s.clusters := rfl
@[simp] theorem State.mapCur_cores (s : State) (f : Hart → Hart) : (s.mapCur f).cores = s.cores := rfl
@[simp] theorem State.mapCur_dies (s : State) (f : Hart → Hart) : (s.mapCur f).dies = s.dies := rfl
@[simp] theorem State.mapCur_mem (s : State) (f : Hart → Hart) : (s.mapCur f).mem = s.mem := rfl
@[simp] theorem State.mapCur_memBad (s : State) (f : Hart → Hart) : (s.mapCur f).memBad = s.memBad := rfl
@[simp] theorem State.mapCur_copies (s : State) (f : Hart → Hart) : (s.mapCur f).copies = s.copies := rfl
@[simp] theorem State.mapCur_homeVer (s : State) (f : Hart → Hart) : (s.mapCur f).homeVer = s.homeVer := rfl
@[simp] theorem State.mapCur_version (s : State) (f : Hart → Hart) : (s.mapCur f).version = s.version := rfl
@[simp] theorem State.mapCur_syncs (s : State) (f : Hart → Hart) : (s.mapCur f).syncs = s.syncs := rfl
@[simp] theorem State.mapCur_spans (s : State) (f : Hart → Hart) : (s.mapCur f).spans = s.spans := rfl
@[simp] theorem State.mapCur_sharers (s : State) (f : Hart → Hart) : (s.mapCur f).sharers = s.sharers := rfl
@[simp] theorem State.mapCur_served (s : State) (f : Hart → Hart) : (s.mapCur f).served = s.served := rfl
@[simp] theorem State.mapCur_servedAt (s : State) (f : Hart → Hart) : (s.mapCur f).servedAt = s.servedAt := rfl
@[simp] theorem State.mapCur_tlb (s : State) (f : Hart → Hart) : (s.mapCur f).tlb = s.tlb := rfl
@[simp] theorem State.mapCur_held (s : State) (f : Hart → Hart) : (s.mapCur f).held = s.held := rfl
@[simp] theorem State.mapCur_cmds (s : State) (f : Hart → Hart) : (s.mapCur f).cmds = s.cmds := rfl
@[simp] theorem State.mapCur_extents (s : State) (f : Hart → Hart) : (s.mapCur f).extents = s.extents := rfl
@[simp] theorem State.mapCur_portErrors (s : State) (f : Hart → Hart) : (s.mapCur f).portErrors = s.portErrors := rfl
@[simp] theorem State.mapCur_devs (s : State) (f : Hart → Hart) : (s.mapCur f).devs = s.devs := rfl
@[simp] theorem State.mapCur_peers (s : State) (f : Hart → Hart) : (s.mapCur f).peers = s.peers := rfl
@[simp] theorem State.mapCur_fabric (s : State) (f : Hart → Hart) : (s.mapCur f).fabric = s.fabric := rfl
@[simp] theorem State.mapCur_downLinks (s : State) (f : Hart → Hart) : (s.mapCur f).downLinks = s.downLinks := rfl
@[simp] theorem State.mapCur_arrivals (s : State) (f : Hart → Hart) : (s.mapCur f).arrivals = s.arrivals := rfl
@[simp] theorem State.mapCur_records (s : State) (f : Hart → Hart) : (s.mapCur f).records = s.records := rfl
@[simp] theorem State.mapCur_parity (s : State) (f : Hart → Hart) : (s.mapCur f).parity = s.parity := rfl
@[simp] theorem State.mapCur_podn (s : State) (f : Hart → Hart) : (s.mapCur f).podn = s.podn := rfl
@[simp] theorem State.mapCur_pkg (s : State) (f : Hart → Hart) : (s.mapCur f).pkg = s.pkg := rfl
@[simp] theorem State.mapCur_fe (s : State) (f : Hart → Hart) : (s.mapCur f).fe = s.fe := rfl
@[simp] theorem State.mapCur_queues (s : State) (f : Hart → Hart) : (s.mapCur f).queues = s.queues := rfl
@[simp] theorem State.mapCur_graphs (s : State) (f : Hart → Hart) : (s.mapCur f).graphs = s.graphs := rfl
@[simp] theorem State.mapCur_replays (s : State) (f : Hart → Hart) : (s.mapCur f).replays = s.replays := rfl
@[simp] theorem State.mapCur_crown (s : State) (f : Hart → Hart) : (s.mapCur f).crown = s.crown := rfl
@[simp] theorem State.mapCur_powered (s : State) (f : Hart → Hart) : (s.mapCur f).powered = s.powered := rfl
@[simp] theorem State.mapCur_hostMem (s : State) (f : Hart → Hart) : (s.mapCur f).hostMem = s.hostMem := rfl
@[simp] theorem State.mapCur_out (s : State) (f : Hart → Hart) : (s.mapCur f).out = s.out := rfl
@[simp] theorem State.mapCur_agenda (s : State) (f : Hart → Hart) : (s.mapCur f).agenda = s.agenda := rfl
@[simp] theorem State.mapCur_clock (s : State) (f : Hart → Hart) : (s.mapCur f).clock = s.clock := rfl
@[simp] theorem State.mapCur_fresh (s : State) (f : Hart → Hart) : (s.mapCur f).fresh = s.fresh := rfl
@[simp] theorem State.mapCur_nextId (s : State) (f : Hart → Hart) : (s.mapCur f).nextId = s.nextId := rfl

/-! ### setGroup -/

@[simp] theorem State.setGroup_cur (s : State) (g : Nat) (x : Group) : (s.setGroup g x).cur = s.cur := rfl
@[simp] theorem State.setGroup_picked (s : State) (g : Nat) (x : Group) : (s.setGroup g x).picked = s.picked := rfl
@[simp] theorem State.setGroup_harts (s : State) (g : Nat) (x : Group) : (s.setGroup g x).harts = s.harts := rfl
@[simp] theorem State.setGroup_groups (s : State) (g : Nat) (x : Group) : (s.setGroup g x).groups = s.groups.put g x := rfl
@[simp] theorem State.setGroup_gangs (s : State) (g : Nat) (x : Group) : (s.setGroup g x).gangs = s.gangs := rfl
@[simp] theorem State.setGroup_launches (s : State) (g : Nat) (x : Group) : (s.setGroup g x).launches = s.launches := rfl
@[simp] theorem State.setGroup_clusters (s : State) (g : Nat) (x : Group) : (s.setGroup g x).clusters = s.clusters := rfl
@[simp] theorem State.setGroup_cores (s : State) (g : Nat) (x : Group) : (s.setGroup g x).cores = s.cores := rfl
@[simp] theorem State.setGroup_dies (s : State) (g : Nat) (x : Group) : (s.setGroup g x).dies = s.dies := rfl
@[simp] theorem State.setGroup_mem (s : State) (g : Nat) (x : Group) : (s.setGroup g x).mem = s.mem := rfl
@[simp] theorem State.setGroup_memBad (s : State) (g : Nat) (x : Group) : (s.setGroup g x).memBad = s.memBad := rfl
@[simp] theorem State.setGroup_copies (s : State) (g : Nat) (x : Group) : (s.setGroup g x).copies = s.copies := rfl
@[simp] theorem State.setGroup_homeVer (s : State) (g : Nat) (x : Group) : (s.setGroup g x).homeVer = s.homeVer := rfl
@[simp] theorem State.setGroup_version (s : State) (g : Nat) (x : Group) : (s.setGroup g x).version = s.version := rfl
@[simp] theorem State.setGroup_syncs (s : State) (g : Nat) (x : Group) : (s.setGroup g x).syncs = s.syncs := rfl
@[simp] theorem State.setGroup_spans (s : State) (g : Nat) (x : Group) : (s.setGroup g x).spans = s.spans := rfl
@[simp] theorem State.setGroup_sharers (s : State) (g : Nat) (x : Group) : (s.setGroup g x).sharers = s.sharers := rfl
@[simp] theorem State.setGroup_served (s : State) (g : Nat) (x : Group) : (s.setGroup g x).served = s.served := rfl
@[simp] theorem State.setGroup_servedAt (s : State) (g : Nat) (x : Group) : (s.setGroup g x).servedAt = s.servedAt := rfl
@[simp] theorem State.setGroup_tlb (s : State) (g : Nat) (x : Group) : (s.setGroup g x).tlb = s.tlb := rfl
@[simp] theorem State.setGroup_held (s : State) (g : Nat) (x : Group) : (s.setGroup g x).held = s.held := rfl
@[simp] theorem State.setGroup_cmds (s : State) (g : Nat) (x : Group) : (s.setGroup g x).cmds = s.cmds := rfl
@[simp] theorem State.setGroup_extents (s : State) (g : Nat) (x : Group) : (s.setGroup g x).extents = s.extents := rfl
@[simp] theorem State.setGroup_portErrors (s : State) (g : Nat) (x : Group) : (s.setGroup g x).portErrors = s.portErrors := rfl
@[simp] theorem State.setGroup_devs (s : State) (g : Nat) (x : Group) : (s.setGroup g x).devs = s.devs := rfl
@[simp] theorem State.setGroup_peers (s : State) (g : Nat) (x : Group) : (s.setGroup g x).peers = s.peers := rfl
@[simp] theorem State.setGroup_fabric (s : State) (g : Nat) (x : Group) : (s.setGroup g x).fabric = s.fabric := rfl
@[simp] theorem State.setGroup_downLinks (s : State) (g : Nat) (x : Group) : (s.setGroup g x).downLinks = s.downLinks := rfl
@[simp] theorem State.setGroup_arrivals (s : State) (g : Nat) (x : Group) : (s.setGroup g x).arrivals = s.arrivals := rfl
@[simp] theorem State.setGroup_records (s : State) (g : Nat) (x : Group) : (s.setGroup g x).records = s.records := rfl
@[simp] theorem State.setGroup_parity (s : State) (g : Nat) (x : Group) : (s.setGroup g x).parity = s.parity := rfl
@[simp] theorem State.setGroup_podn (s : State) (g : Nat) (x : Group) : (s.setGroup g x).podn = s.podn := rfl
@[simp] theorem State.setGroup_pkg (s : State) (g : Nat) (x : Group) : (s.setGroup g x).pkg = s.pkg := rfl
@[simp] theorem State.setGroup_fe (s : State) (g : Nat) (x : Group) : (s.setGroup g x).fe = s.fe := rfl
@[simp] theorem State.setGroup_queues (s : State) (g : Nat) (x : Group) : (s.setGroup g x).queues = s.queues := rfl
@[simp] theorem State.setGroup_graphs (s : State) (g : Nat) (x : Group) : (s.setGroup g x).graphs = s.graphs := rfl
@[simp] theorem State.setGroup_replays (s : State) (g : Nat) (x : Group) : (s.setGroup g x).replays = s.replays := rfl
@[simp] theorem State.setGroup_crown (s : State) (g : Nat) (x : Group) : (s.setGroup g x).crown = s.crown := rfl
@[simp] theorem State.setGroup_powered (s : State) (g : Nat) (x : Group) : (s.setGroup g x).powered = s.powered := rfl
@[simp] theorem State.setGroup_hostMem (s : State) (g : Nat) (x : Group) : (s.setGroup g x).hostMem = s.hostMem := rfl
@[simp] theorem State.setGroup_out (s : State) (g : Nat) (x : Group) : (s.setGroup g x).out = s.out := rfl
@[simp] theorem State.setGroup_agenda (s : State) (g : Nat) (x : Group) : (s.setGroup g x).agenda = s.agenda := rfl
@[simp] theorem State.setGroup_clock (s : State) (g : Nat) (x : Group) : (s.setGroup g x).clock = s.clock := rfl
@[simp] theorem State.setGroup_fresh (s : State) (g : Nat) (x : Group) : (s.setGroup g x).fresh = s.fresh := rfl
@[simp] theorem State.setGroup_nextId (s : State) (g : Nat) (x : Group) : (s.setGroup g x).nextId = s.nextId := rfl

/-! ### setLaunch -/

@[simp] theorem State.setLaunch_cur (s : State) (l : Nat) (x : Launch) : (s.setLaunch l x).cur = s.cur := rfl
@[simp] theorem State.setLaunch_picked (s : State) (l : Nat) (x : Launch) : (s.setLaunch l x).picked = s.picked := rfl
@[simp] theorem State.setLaunch_harts (s : State) (l : Nat) (x : Launch) : (s.setLaunch l x).harts = s.harts := rfl
@[simp] theorem State.setLaunch_groups (s : State) (l : Nat) (x : Launch) : (s.setLaunch l x).groups = s.groups := rfl
@[simp] theorem State.setLaunch_gangs (s : State) (l : Nat) (x : Launch) : (s.setLaunch l x).gangs = s.gangs := rfl
@[simp] theorem State.setLaunch_launches (s : State) (l : Nat) (x : Launch) : (s.setLaunch l x).launches = s.launches.put l x := rfl
@[simp] theorem State.setLaunch_clusters (s : State) (l : Nat) (x : Launch) : (s.setLaunch l x).clusters = s.clusters := rfl
@[simp] theorem State.setLaunch_cores (s : State) (l : Nat) (x : Launch) : (s.setLaunch l x).cores = s.cores := rfl
@[simp] theorem State.setLaunch_dies (s : State) (l : Nat) (x : Launch) : (s.setLaunch l x).dies = s.dies := rfl
@[simp] theorem State.setLaunch_mem (s : State) (l : Nat) (x : Launch) : (s.setLaunch l x).mem = s.mem := rfl
@[simp] theorem State.setLaunch_memBad (s : State) (l : Nat) (x : Launch) : (s.setLaunch l x).memBad = s.memBad := rfl
@[simp] theorem State.setLaunch_copies (s : State) (l : Nat) (x : Launch) : (s.setLaunch l x).copies = s.copies := rfl
@[simp] theorem State.setLaunch_homeVer (s : State) (l : Nat) (x : Launch) : (s.setLaunch l x).homeVer = s.homeVer := rfl
@[simp] theorem State.setLaunch_version (s : State) (l : Nat) (x : Launch) : (s.setLaunch l x).version = s.version := rfl
@[simp] theorem State.setLaunch_syncs (s : State) (l : Nat) (x : Launch) : (s.setLaunch l x).syncs = s.syncs := rfl
@[simp] theorem State.setLaunch_spans (s : State) (l : Nat) (x : Launch) : (s.setLaunch l x).spans = s.spans := rfl
@[simp] theorem State.setLaunch_sharers (s : State) (l : Nat) (x : Launch) : (s.setLaunch l x).sharers = s.sharers := rfl
@[simp] theorem State.setLaunch_served (s : State) (l : Nat) (x : Launch) : (s.setLaunch l x).served = s.served := rfl
@[simp] theorem State.setLaunch_servedAt (s : State) (l : Nat) (x : Launch) : (s.setLaunch l x).servedAt = s.servedAt := rfl
@[simp] theorem State.setLaunch_tlb (s : State) (l : Nat) (x : Launch) : (s.setLaunch l x).tlb = s.tlb := rfl
@[simp] theorem State.setLaunch_held (s : State) (l : Nat) (x : Launch) : (s.setLaunch l x).held = s.held := rfl
@[simp] theorem State.setLaunch_cmds (s : State) (l : Nat) (x : Launch) : (s.setLaunch l x).cmds = s.cmds := rfl
@[simp] theorem State.setLaunch_extents (s : State) (l : Nat) (x : Launch) : (s.setLaunch l x).extents = s.extents := rfl
@[simp] theorem State.setLaunch_portErrors (s : State) (l : Nat) (x : Launch) : (s.setLaunch l x).portErrors = s.portErrors := rfl
@[simp] theorem State.setLaunch_devs (s : State) (l : Nat) (x : Launch) : (s.setLaunch l x).devs = s.devs := rfl
@[simp] theorem State.setLaunch_peers (s : State) (l : Nat) (x : Launch) : (s.setLaunch l x).peers = s.peers := rfl
@[simp] theorem State.setLaunch_fabric (s : State) (l : Nat) (x : Launch) : (s.setLaunch l x).fabric = s.fabric := rfl
@[simp] theorem State.setLaunch_downLinks (s : State) (l : Nat) (x : Launch) : (s.setLaunch l x).downLinks = s.downLinks := rfl
@[simp] theorem State.setLaunch_arrivals (s : State) (l : Nat) (x : Launch) : (s.setLaunch l x).arrivals = s.arrivals := rfl
@[simp] theorem State.setLaunch_records (s : State) (l : Nat) (x : Launch) : (s.setLaunch l x).records = s.records := rfl
@[simp] theorem State.setLaunch_parity (s : State) (l : Nat) (x : Launch) : (s.setLaunch l x).parity = s.parity := rfl
@[simp] theorem State.setLaunch_podn (s : State) (l : Nat) (x : Launch) : (s.setLaunch l x).podn = s.podn := rfl
@[simp] theorem State.setLaunch_pkg (s : State) (l : Nat) (x : Launch) : (s.setLaunch l x).pkg = s.pkg := rfl
@[simp] theorem State.setLaunch_fe (s : State) (l : Nat) (x : Launch) : (s.setLaunch l x).fe = s.fe := rfl
@[simp] theorem State.setLaunch_queues (s : State) (l : Nat) (x : Launch) : (s.setLaunch l x).queues = s.queues := rfl
@[simp] theorem State.setLaunch_graphs (s : State) (l : Nat) (x : Launch) : (s.setLaunch l x).graphs = s.graphs := rfl
@[simp] theorem State.setLaunch_replays (s : State) (l : Nat) (x : Launch) : (s.setLaunch l x).replays = s.replays := rfl
@[simp] theorem State.setLaunch_crown (s : State) (l : Nat) (x : Launch) : (s.setLaunch l x).crown = s.crown := rfl
@[simp] theorem State.setLaunch_powered (s : State) (l : Nat) (x : Launch) : (s.setLaunch l x).powered = s.powered := rfl
@[simp] theorem State.setLaunch_hostMem (s : State) (l : Nat) (x : Launch) : (s.setLaunch l x).hostMem = s.hostMem := rfl
@[simp] theorem State.setLaunch_out (s : State) (l : Nat) (x : Launch) : (s.setLaunch l x).out = s.out := rfl
@[simp] theorem State.setLaunch_agenda (s : State) (l : Nat) (x : Launch) : (s.setLaunch l x).agenda = s.agenda := rfl
@[simp] theorem State.setLaunch_clock (s : State) (l : Nat) (x : Launch) : (s.setLaunch l x).clock = s.clock := rfl
@[simp] theorem State.setLaunch_fresh (s : State) (l : Nat) (x : Launch) : (s.setLaunch l x).fresh = s.fresh := rfl
@[simp] theorem State.setLaunch_nextId (s : State) (l : Nat) (x : Launch) : (s.setLaunch l x).nextId = s.nextId := rfl

/-! ### setCluster -/

@[simp] theorem State.setCluster_cur (s : State) (c : Nat) (x : Cluster) : (s.setCluster c x).cur = s.cur := rfl
@[simp] theorem State.setCluster_picked (s : State) (c : Nat) (x : Cluster) : (s.setCluster c x).picked = s.picked := rfl
@[simp] theorem State.setCluster_harts (s : State) (c : Nat) (x : Cluster) : (s.setCluster c x).harts = s.harts := rfl
@[simp] theorem State.setCluster_groups (s : State) (c : Nat) (x : Cluster) : (s.setCluster c x).groups = s.groups := rfl
@[simp] theorem State.setCluster_gangs (s : State) (c : Nat) (x : Cluster) : (s.setCluster c x).gangs = s.gangs := rfl
@[simp] theorem State.setCluster_launches (s : State) (c : Nat) (x : Cluster) : (s.setCluster c x).launches = s.launches := rfl
@[simp] theorem State.setCluster_clusters (s : State) (c : Nat) (x : Cluster) : (s.setCluster c x).clusters = s.clusters.put c x := rfl
@[simp] theorem State.setCluster_cores (s : State) (c : Nat) (x : Cluster) : (s.setCluster c x).cores = s.cores := rfl
@[simp] theorem State.setCluster_dies (s : State) (c : Nat) (x : Cluster) : (s.setCluster c x).dies = s.dies := rfl
@[simp] theorem State.setCluster_mem (s : State) (c : Nat) (x : Cluster) : (s.setCluster c x).mem = s.mem := rfl
@[simp] theorem State.setCluster_memBad (s : State) (c : Nat) (x : Cluster) : (s.setCluster c x).memBad = s.memBad := rfl
@[simp] theorem State.setCluster_copies (s : State) (c : Nat) (x : Cluster) : (s.setCluster c x).copies = s.copies := rfl
@[simp] theorem State.setCluster_homeVer (s : State) (c : Nat) (x : Cluster) : (s.setCluster c x).homeVer = s.homeVer := rfl
@[simp] theorem State.setCluster_version (s : State) (c : Nat) (x : Cluster) : (s.setCluster c x).version = s.version := rfl
@[simp] theorem State.setCluster_syncs (s : State) (c : Nat) (x : Cluster) : (s.setCluster c x).syncs = s.syncs := rfl
@[simp] theorem State.setCluster_spans (s : State) (c : Nat) (x : Cluster) : (s.setCluster c x).spans = s.spans := rfl
@[simp] theorem State.setCluster_sharers (s : State) (c : Nat) (x : Cluster) : (s.setCluster c x).sharers = s.sharers := rfl
@[simp] theorem State.setCluster_served (s : State) (c : Nat) (x : Cluster) : (s.setCluster c x).served = s.served := rfl
@[simp] theorem State.setCluster_servedAt (s : State) (c : Nat) (x : Cluster) : (s.setCluster c x).servedAt = s.servedAt := rfl
@[simp] theorem State.setCluster_tlb (s : State) (c : Nat) (x : Cluster) : (s.setCluster c x).tlb = s.tlb := rfl
@[simp] theorem State.setCluster_held (s : State) (c : Nat) (x : Cluster) : (s.setCluster c x).held = s.held := rfl
@[simp] theorem State.setCluster_cmds (s : State) (c : Nat) (x : Cluster) : (s.setCluster c x).cmds = s.cmds := rfl
@[simp] theorem State.setCluster_extents (s : State) (c : Nat) (x : Cluster) : (s.setCluster c x).extents = s.extents := rfl
@[simp] theorem State.setCluster_portErrors (s : State) (c : Nat) (x : Cluster) : (s.setCluster c x).portErrors = s.portErrors := rfl
@[simp] theorem State.setCluster_devs (s : State) (c : Nat) (x : Cluster) : (s.setCluster c x).devs = s.devs := rfl
@[simp] theorem State.setCluster_peers (s : State) (c : Nat) (x : Cluster) : (s.setCluster c x).peers = s.peers := rfl
@[simp] theorem State.setCluster_fabric (s : State) (c : Nat) (x : Cluster) : (s.setCluster c x).fabric = s.fabric := rfl
@[simp] theorem State.setCluster_downLinks (s : State) (c : Nat) (x : Cluster) : (s.setCluster c x).downLinks = s.downLinks := rfl
@[simp] theorem State.setCluster_arrivals (s : State) (c : Nat) (x : Cluster) : (s.setCluster c x).arrivals = s.arrivals := rfl
@[simp] theorem State.setCluster_records (s : State) (c : Nat) (x : Cluster) : (s.setCluster c x).records = s.records := rfl
@[simp] theorem State.setCluster_parity (s : State) (c : Nat) (x : Cluster) : (s.setCluster c x).parity = s.parity := rfl
@[simp] theorem State.setCluster_podn (s : State) (c : Nat) (x : Cluster) : (s.setCluster c x).podn = s.podn := rfl
@[simp] theorem State.setCluster_pkg (s : State) (c : Nat) (x : Cluster) : (s.setCluster c x).pkg = s.pkg := rfl
@[simp] theorem State.setCluster_fe (s : State) (c : Nat) (x : Cluster) : (s.setCluster c x).fe = s.fe := rfl
@[simp] theorem State.setCluster_queues (s : State) (c : Nat) (x : Cluster) : (s.setCluster c x).queues = s.queues := rfl
@[simp] theorem State.setCluster_graphs (s : State) (c : Nat) (x : Cluster) : (s.setCluster c x).graphs = s.graphs := rfl
@[simp] theorem State.setCluster_replays (s : State) (c : Nat) (x : Cluster) : (s.setCluster c x).replays = s.replays := rfl
@[simp] theorem State.setCluster_crown (s : State) (c : Nat) (x : Cluster) : (s.setCluster c x).crown = s.crown := rfl
@[simp] theorem State.setCluster_powered (s : State) (c : Nat) (x : Cluster) : (s.setCluster c x).powered = s.powered := rfl
@[simp] theorem State.setCluster_hostMem (s : State) (c : Nat) (x : Cluster) : (s.setCluster c x).hostMem = s.hostMem := rfl
@[simp] theorem State.setCluster_out (s : State) (c : Nat) (x : Cluster) : (s.setCluster c x).out = s.out := rfl
@[simp] theorem State.setCluster_agenda (s : State) (c : Nat) (x : Cluster) : (s.setCluster c x).agenda = s.agenda := rfl
@[simp] theorem State.setCluster_clock (s : State) (c : Nat) (x : Cluster) : (s.setCluster c x).clock = s.clock := rfl
@[simp] theorem State.setCluster_fresh (s : State) (c : Nat) (x : Cluster) : (s.setCluster c x).fresh = s.fresh := rfl
@[simp] theorem State.setCluster_nextId (s : State) (c : Nat) (x : Cluster) : (s.setCluster c x).nextId = s.nextId := rfl

/-! ### setCore -/

@[simp] theorem State.setCore_cur (s : State) (c : Nat) (x : Core) : (s.setCore c x).cur = s.cur := rfl
@[simp] theorem State.setCore_picked (s : State) (c : Nat) (x : Core) : (s.setCore c x).picked = s.picked := rfl
@[simp] theorem State.setCore_harts (s : State) (c : Nat) (x : Core) : (s.setCore c x).harts = s.harts := rfl
@[simp] theorem State.setCore_groups (s : State) (c : Nat) (x : Core) : (s.setCore c x).groups = s.groups := rfl
@[simp] theorem State.setCore_gangs (s : State) (c : Nat) (x : Core) : (s.setCore c x).gangs = s.gangs := rfl
@[simp] theorem State.setCore_launches (s : State) (c : Nat) (x : Core) : (s.setCore c x).launches = s.launches := rfl
@[simp] theorem State.setCore_clusters (s : State) (c : Nat) (x : Core) : (s.setCore c x).clusters = s.clusters := rfl
@[simp] theorem State.setCore_cores (s : State) (c : Nat) (x : Core) : (s.setCore c x).cores = s.cores.put c x := rfl
@[simp] theorem State.setCore_dies (s : State) (c : Nat) (x : Core) : (s.setCore c x).dies = s.dies := rfl
@[simp] theorem State.setCore_mem (s : State) (c : Nat) (x : Core) : (s.setCore c x).mem = s.mem := rfl
@[simp] theorem State.setCore_memBad (s : State) (c : Nat) (x : Core) : (s.setCore c x).memBad = s.memBad := rfl
@[simp] theorem State.setCore_copies (s : State) (c : Nat) (x : Core) : (s.setCore c x).copies = s.copies := rfl
@[simp] theorem State.setCore_homeVer (s : State) (c : Nat) (x : Core) : (s.setCore c x).homeVer = s.homeVer := rfl
@[simp] theorem State.setCore_version (s : State) (c : Nat) (x : Core) : (s.setCore c x).version = s.version := rfl
@[simp] theorem State.setCore_syncs (s : State) (c : Nat) (x : Core) : (s.setCore c x).syncs = s.syncs := rfl
@[simp] theorem State.setCore_spans (s : State) (c : Nat) (x : Core) : (s.setCore c x).spans = s.spans := rfl
@[simp] theorem State.setCore_sharers (s : State) (c : Nat) (x : Core) : (s.setCore c x).sharers = s.sharers := rfl
@[simp] theorem State.setCore_served (s : State) (c : Nat) (x : Core) : (s.setCore c x).served = s.served := rfl
@[simp] theorem State.setCore_servedAt (s : State) (c : Nat) (x : Core) : (s.setCore c x).servedAt = s.servedAt := rfl
@[simp] theorem State.setCore_tlb (s : State) (c : Nat) (x : Core) : (s.setCore c x).tlb = s.tlb := rfl
@[simp] theorem State.setCore_held (s : State) (c : Nat) (x : Core) : (s.setCore c x).held = s.held := rfl
@[simp] theorem State.setCore_cmds (s : State) (c : Nat) (x : Core) : (s.setCore c x).cmds = s.cmds := rfl
@[simp] theorem State.setCore_extents (s : State) (c : Nat) (x : Core) : (s.setCore c x).extents = s.extents := rfl
@[simp] theorem State.setCore_portErrors (s : State) (c : Nat) (x : Core) : (s.setCore c x).portErrors = s.portErrors := rfl
@[simp] theorem State.setCore_devs (s : State) (c : Nat) (x : Core) : (s.setCore c x).devs = s.devs := rfl
@[simp] theorem State.setCore_peers (s : State) (c : Nat) (x : Core) : (s.setCore c x).peers = s.peers := rfl
@[simp] theorem State.setCore_fabric (s : State) (c : Nat) (x : Core) : (s.setCore c x).fabric = s.fabric := rfl
@[simp] theorem State.setCore_downLinks (s : State) (c : Nat) (x : Core) : (s.setCore c x).downLinks = s.downLinks := rfl
@[simp] theorem State.setCore_arrivals (s : State) (c : Nat) (x : Core) : (s.setCore c x).arrivals = s.arrivals := rfl
@[simp] theorem State.setCore_records (s : State) (c : Nat) (x : Core) : (s.setCore c x).records = s.records := rfl
@[simp] theorem State.setCore_parity (s : State) (c : Nat) (x : Core) : (s.setCore c x).parity = s.parity := rfl
@[simp] theorem State.setCore_podn (s : State) (c : Nat) (x : Core) : (s.setCore c x).podn = s.podn := rfl
@[simp] theorem State.setCore_pkg (s : State) (c : Nat) (x : Core) : (s.setCore c x).pkg = s.pkg := rfl
@[simp] theorem State.setCore_fe (s : State) (c : Nat) (x : Core) : (s.setCore c x).fe = s.fe := rfl
@[simp] theorem State.setCore_queues (s : State) (c : Nat) (x : Core) : (s.setCore c x).queues = s.queues := rfl
@[simp] theorem State.setCore_graphs (s : State) (c : Nat) (x : Core) : (s.setCore c x).graphs = s.graphs := rfl
@[simp] theorem State.setCore_replays (s : State) (c : Nat) (x : Core) : (s.setCore c x).replays = s.replays := rfl
@[simp] theorem State.setCore_crown (s : State) (c : Nat) (x : Core) : (s.setCore c x).crown = s.crown := rfl
@[simp] theorem State.setCore_powered (s : State) (c : Nat) (x : Core) : (s.setCore c x).powered = s.powered := rfl
@[simp] theorem State.setCore_hostMem (s : State) (c : Nat) (x : Core) : (s.setCore c x).hostMem = s.hostMem := rfl
@[simp] theorem State.setCore_out (s : State) (c : Nat) (x : Core) : (s.setCore c x).out = s.out := rfl
@[simp] theorem State.setCore_agenda (s : State) (c : Nat) (x : Core) : (s.setCore c x).agenda = s.agenda := rfl
@[simp] theorem State.setCore_clock (s : State) (c : Nat) (x : Core) : (s.setCore c x).clock = s.clock := rfl
@[simp] theorem State.setCore_fresh (s : State) (c : Nat) (x : Core) : (s.setCore c x).fresh = s.fresh := rfl
@[simp] theorem State.setCore_nextId (s : State) (c : Nat) (x : Core) : (s.setCore c x).nextId = s.nextId := rfl

/-! ### setDie -/

@[simp] theorem State.setDie_cur (s : State) (d : Nat) (x : Die) : (s.setDie d x).cur = s.cur := rfl
@[simp] theorem State.setDie_picked (s : State) (d : Nat) (x : Die) : (s.setDie d x).picked = s.picked := rfl
@[simp] theorem State.setDie_harts (s : State) (d : Nat) (x : Die) : (s.setDie d x).harts = s.harts := rfl
@[simp] theorem State.setDie_groups (s : State) (d : Nat) (x : Die) : (s.setDie d x).groups = s.groups := rfl
@[simp] theorem State.setDie_gangs (s : State) (d : Nat) (x : Die) : (s.setDie d x).gangs = s.gangs := rfl
@[simp] theorem State.setDie_launches (s : State) (d : Nat) (x : Die) : (s.setDie d x).launches = s.launches := rfl
@[simp] theorem State.setDie_clusters (s : State) (d : Nat) (x : Die) : (s.setDie d x).clusters = s.clusters := rfl
@[simp] theorem State.setDie_cores (s : State) (d : Nat) (x : Die) : (s.setDie d x).cores = s.cores := rfl
@[simp] theorem State.setDie_dies (s : State) (d : Nat) (x : Die) : (s.setDie d x).dies = s.dies.put d x := rfl
@[simp] theorem State.setDie_mem (s : State) (d : Nat) (x : Die) : (s.setDie d x).mem = s.mem := rfl
@[simp] theorem State.setDie_memBad (s : State) (d : Nat) (x : Die) : (s.setDie d x).memBad = s.memBad := rfl
@[simp] theorem State.setDie_copies (s : State) (d : Nat) (x : Die) : (s.setDie d x).copies = s.copies := rfl
@[simp] theorem State.setDie_homeVer (s : State) (d : Nat) (x : Die) : (s.setDie d x).homeVer = s.homeVer := rfl
@[simp] theorem State.setDie_version (s : State) (d : Nat) (x : Die) : (s.setDie d x).version = s.version := rfl
@[simp] theorem State.setDie_syncs (s : State) (d : Nat) (x : Die) : (s.setDie d x).syncs = s.syncs := rfl
@[simp] theorem State.setDie_spans (s : State) (d : Nat) (x : Die) : (s.setDie d x).spans = s.spans := rfl
@[simp] theorem State.setDie_sharers (s : State) (d : Nat) (x : Die) : (s.setDie d x).sharers = s.sharers := rfl
@[simp] theorem State.setDie_served (s : State) (d : Nat) (x : Die) : (s.setDie d x).served = s.served := rfl
@[simp] theorem State.setDie_servedAt (s : State) (d : Nat) (x : Die) : (s.setDie d x).servedAt = s.servedAt := rfl
@[simp] theorem State.setDie_tlb (s : State) (d : Nat) (x : Die) : (s.setDie d x).tlb = s.tlb := rfl
@[simp] theorem State.setDie_held (s : State) (d : Nat) (x : Die) : (s.setDie d x).held = s.held := rfl
@[simp] theorem State.setDie_cmds (s : State) (d : Nat) (x : Die) : (s.setDie d x).cmds = s.cmds := rfl
@[simp] theorem State.setDie_extents (s : State) (d : Nat) (x : Die) : (s.setDie d x).extents = s.extents := rfl
@[simp] theorem State.setDie_portErrors (s : State) (d : Nat) (x : Die) : (s.setDie d x).portErrors = s.portErrors := rfl
@[simp] theorem State.setDie_devs (s : State) (d : Nat) (x : Die) : (s.setDie d x).devs = s.devs := rfl
@[simp] theorem State.setDie_peers (s : State) (d : Nat) (x : Die) : (s.setDie d x).peers = s.peers := rfl
@[simp] theorem State.setDie_fabric (s : State) (d : Nat) (x : Die) : (s.setDie d x).fabric = s.fabric := rfl
@[simp] theorem State.setDie_downLinks (s : State) (d : Nat) (x : Die) : (s.setDie d x).downLinks = s.downLinks := rfl
@[simp] theorem State.setDie_arrivals (s : State) (d : Nat) (x : Die) : (s.setDie d x).arrivals = s.arrivals := rfl
@[simp] theorem State.setDie_records (s : State) (d : Nat) (x : Die) : (s.setDie d x).records = s.records := rfl
@[simp] theorem State.setDie_parity (s : State) (d : Nat) (x : Die) : (s.setDie d x).parity = s.parity := rfl
@[simp] theorem State.setDie_podn (s : State) (d : Nat) (x : Die) : (s.setDie d x).podn = s.podn := rfl
@[simp] theorem State.setDie_pkg (s : State) (d : Nat) (x : Die) : (s.setDie d x).pkg = s.pkg := rfl
@[simp] theorem State.setDie_fe (s : State) (d : Nat) (x : Die) : (s.setDie d x).fe = s.fe := rfl
@[simp] theorem State.setDie_queues (s : State) (d : Nat) (x : Die) : (s.setDie d x).queues = s.queues := rfl
@[simp] theorem State.setDie_graphs (s : State) (d : Nat) (x : Die) : (s.setDie d x).graphs = s.graphs := rfl
@[simp] theorem State.setDie_replays (s : State) (d : Nat) (x : Die) : (s.setDie d x).replays = s.replays := rfl
@[simp] theorem State.setDie_crown (s : State) (d : Nat) (x : Die) : (s.setDie d x).crown = s.crown := rfl
@[simp] theorem State.setDie_powered (s : State) (d : Nat) (x : Die) : (s.setDie d x).powered = s.powered := rfl
@[simp] theorem State.setDie_hostMem (s : State) (d : Nat) (x : Die) : (s.setDie d x).hostMem = s.hostMem := rfl
@[simp] theorem State.setDie_out (s : State) (d : Nat) (x : Die) : (s.setDie d x).out = s.out := rfl
@[simp] theorem State.setDie_agenda (s : State) (d : Nat) (x : Die) : (s.setDie d x).agenda = s.agenda := rfl
@[simp] theorem State.setDie_clock (s : State) (d : Nat) (x : Die) : (s.setDie d x).clock = s.clock := rfl
@[simp] theorem State.setDie_fresh (s : State) (d : Nat) (x : Die) : (s.setDie d x).fresh = s.fresh := rfl
@[simp] theorem State.setDie_nextId (s : State) (d : Nat) (x : Die) : (s.setDie d x).nextId = s.nextId := rfl

/-! ### setQueue -/

@[simp] theorem State.setQueue_cur (s : State) (q : Nat) (x : Queue) : (s.setQueue q x).cur = s.cur := rfl
@[simp] theorem State.setQueue_picked (s : State) (q : Nat) (x : Queue) : (s.setQueue q x).picked = s.picked := rfl
@[simp] theorem State.setQueue_harts (s : State) (q : Nat) (x : Queue) : (s.setQueue q x).harts = s.harts := rfl
@[simp] theorem State.setQueue_groups (s : State) (q : Nat) (x : Queue) : (s.setQueue q x).groups = s.groups := rfl
@[simp] theorem State.setQueue_gangs (s : State) (q : Nat) (x : Queue) : (s.setQueue q x).gangs = s.gangs := rfl
@[simp] theorem State.setQueue_launches (s : State) (q : Nat) (x : Queue) : (s.setQueue q x).launches = s.launches := rfl
@[simp] theorem State.setQueue_clusters (s : State) (q : Nat) (x : Queue) : (s.setQueue q x).clusters = s.clusters := rfl
@[simp] theorem State.setQueue_cores (s : State) (q : Nat) (x : Queue) : (s.setQueue q x).cores = s.cores := rfl
@[simp] theorem State.setQueue_dies (s : State) (q : Nat) (x : Queue) : (s.setQueue q x).dies = s.dies := rfl
@[simp] theorem State.setQueue_mem (s : State) (q : Nat) (x : Queue) : (s.setQueue q x).mem = s.mem := rfl
@[simp] theorem State.setQueue_memBad (s : State) (q : Nat) (x : Queue) : (s.setQueue q x).memBad = s.memBad := rfl
@[simp] theorem State.setQueue_copies (s : State) (q : Nat) (x : Queue) : (s.setQueue q x).copies = s.copies := rfl
@[simp] theorem State.setQueue_homeVer (s : State) (q : Nat) (x : Queue) : (s.setQueue q x).homeVer = s.homeVer := rfl
@[simp] theorem State.setQueue_version (s : State) (q : Nat) (x : Queue) : (s.setQueue q x).version = s.version := rfl
@[simp] theorem State.setQueue_syncs (s : State) (q : Nat) (x : Queue) : (s.setQueue q x).syncs = s.syncs := rfl
@[simp] theorem State.setQueue_spans (s : State) (q : Nat) (x : Queue) : (s.setQueue q x).spans = s.spans := rfl
@[simp] theorem State.setQueue_sharers (s : State) (q : Nat) (x : Queue) : (s.setQueue q x).sharers = s.sharers := rfl
@[simp] theorem State.setQueue_served (s : State) (q : Nat) (x : Queue) : (s.setQueue q x).served = s.served := rfl
@[simp] theorem State.setQueue_servedAt (s : State) (q : Nat) (x : Queue) : (s.setQueue q x).servedAt = s.servedAt := rfl
@[simp] theorem State.setQueue_tlb (s : State) (q : Nat) (x : Queue) : (s.setQueue q x).tlb = s.tlb := rfl
@[simp] theorem State.setQueue_held (s : State) (q : Nat) (x : Queue) : (s.setQueue q x).held = s.held := rfl
@[simp] theorem State.setQueue_cmds (s : State) (q : Nat) (x : Queue) : (s.setQueue q x).cmds = s.cmds := rfl
@[simp] theorem State.setQueue_extents (s : State) (q : Nat) (x : Queue) : (s.setQueue q x).extents = s.extents := rfl
@[simp] theorem State.setQueue_portErrors (s : State) (q : Nat) (x : Queue) : (s.setQueue q x).portErrors = s.portErrors := rfl
@[simp] theorem State.setQueue_devs (s : State) (q : Nat) (x : Queue) : (s.setQueue q x).devs = s.devs := rfl
@[simp] theorem State.setQueue_peers (s : State) (q : Nat) (x : Queue) : (s.setQueue q x).peers = s.peers := rfl
@[simp] theorem State.setQueue_fabric (s : State) (q : Nat) (x : Queue) : (s.setQueue q x).fabric = s.fabric := rfl
@[simp] theorem State.setQueue_downLinks (s : State) (q : Nat) (x : Queue) : (s.setQueue q x).downLinks = s.downLinks := rfl
@[simp] theorem State.setQueue_arrivals (s : State) (q : Nat) (x : Queue) : (s.setQueue q x).arrivals = s.arrivals := rfl
@[simp] theorem State.setQueue_records (s : State) (q : Nat) (x : Queue) : (s.setQueue q x).records = s.records := rfl
@[simp] theorem State.setQueue_parity (s : State) (q : Nat) (x : Queue) : (s.setQueue q x).parity = s.parity := rfl
@[simp] theorem State.setQueue_podn (s : State) (q : Nat) (x : Queue) : (s.setQueue q x).podn = s.podn := rfl
@[simp] theorem State.setQueue_pkg (s : State) (q : Nat) (x : Queue) : (s.setQueue q x).pkg = s.pkg := rfl
@[simp] theorem State.setQueue_fe (s : State) (q : Nat) (x : Queue) : (s.setQueue q x).fe = s.fe := rfl
@[simp] theorem State.setQueue_queues (s : State) (q : Nat) (x : Queue) : (s.setQueue q x).queues = s.queues.put q x := rfl
@[simp] theorem State.setQueue_graphs (s : State) (q : Nat) (x : Queue) : (s.setQueue q x).graphs = s.graphs := rfl
@[simp] theorem State.setQueue_replays (s : State) (q : Nat) (x : Queue) : (s.setQueue q x).replays = s.replays := rfl
@[simp] theorem State.setQueue_crown (s : State) (q : Nat) (x : Queue) : (s.setQueue q x).crown = s.crown := rfl
@[simp] theorem State.setQueue_powered (s : State) (q : Nat) (x : Queue) : (s.setQueue q x).powered = s.powered := rfl
@[simp] theorem State.setQueue_hostMem (s : State) (q : Nat) (x : Queue) : (s.setQueue q x).hostMem = s.hostMem := rfl
@[simp] theorem State.setQueue_out (s : State) (q : Nat) (x : Queue) : (s.setQueue q x).out = s.out := rfl
@[simp] theorem State.setQueue_agenda (s : State) (q : Nat) (x : Queue) : (s.setQueue q x).agenda = s.agenda := rfl
@[simp] theorem State.setQueue_clock (s : State) (q : Nat) (x : Queue) : (s.setQueue q x).clock = s.clock := rfl
@[simp] theorem State.setQueue_fresh (s : State) (q : Nat) (x : Queue) : (s.setQueue q x).fresh = s.fresh := rfl
@[simp] theorem State.setQueue_nextId (s : State) (q : Nat) (x : Queue) : (s.setQueue q x).nextId = s.nextId := rfl

/-! ### send -/

@[simp] theorem State.send_cur (s : State) (o : Output) : (s.send o).cur = s.cur := rfl
@[simp] theorem State.send_picked (s : State) (o : Output) : (s.send o).picked = s.picked := rfl
@[simp] theorem State.send_harts (s : State) (o : Output) : (s.send o).harts = s.harts := rfl
@[simp] theorem State.send_groups (s : State) (o : Output) : (s.send o).groups = s.groups := rfl
@[simp] theorem State.send_gangs (s : State) (o : Output) : (s.send o).gangs = s.gangs := rfl
@[simp] theorem State.send_launches (s : State) (o : Output) : (s.send o).launches = s.launches := rfl
@[simp] theorem State.send_clusters (s : State) (o : Output) : (s.send o).clusters = s.clusters := rfl
@[simp] theorem State.send_cores (s : State) (o : Output) : (s.send o).cores = s.cores := rfl
@[simp] theorem State.send_dies (s : State) (o : Output) : (s.send o).dies = s.dies := rfl
@[simp] theorem State.send_mem (s : State) (o : Output) : (s.send o).mem = s.mem := rfl
@[simp] theorem State.send_memBad (s : State) (o : Output) : (s.send o).memBad = s.memBad := rfl
@[simp] theorem State.send_copies (s : State) (o : Output) : (s.send o).copies = s.copies := rfl
@[simp] theorem State.send_homeVer (s : State) (o : Output) : (s.send o).homeVer = s.homeVer := rfl
@[simp] theorem State.send_version (s : State) (o : Output) : (s.send o).version = s.version := rfl
@[simp] theorem State.send_syncs (s : State) (o : Output) : (s.send o).syncs = s.syncs := rfl
@[simp] theorem State.send_spans (s : State) (o : Output) : (s.send o).spans = s.spans := rfl
@[simp] theorem State.send_sharers (s : State) (o : Output) : (s.send o).sharers = s.sharers := rfl
@[simp] theorem State.send_served (s : State) (o : Output) : (s.send o).served = s.served := rfl
@[simp] theorem State.send_servedAt (s : State) (o : Output) : (s.send o).servedAt = s.servedAt := rfl
@[simp] theorem State.send_tlb (s : State) (o : Output) : (s.send o).tlb = s.tlb := rfl
@[simp] theorem State.send_held (s : State) (o : Output) : (s.send o).held = s.held := rfl
@[simp] theorem State.send_cmds (s : State) (o : Output) : (s.send o).cmds = s.cmds := rfl
@[simp] theorem State.send_extents (s : State) (o : Output) : (s.send o).extents = s.extents := rfl
@[simp] theorem State.send_portErrors (s : State) (o : Output) : (s.send o).portErrors = s.portErrors := rfl
@[simp] theorem State.send_devs (s : State) (o : Output) : (s.send o).devs = s.devs := rfl
@[simp] theorem State.send_peers (s : State) (o : Output) : (s.send o).peers = s.peers := rfl
@[simp] theorem State.send_fabric (s : State) (o : Output) : (s.send o).fabric = s.fabric := rfl
@[simp] theorem State.send_downLinks (s : State) (o : Output) : (s.send o).downLinks = s.downLinks := rfl
@[simp] theorem State.send_arrivals (s : State) (o : Output) : (s.send o).arrivals = s.arrivals := rfl
@[simp] theorem State.send_records (s : State) (o : Output) : (s.send o).records = s.records := rfl
@[simp] theorem State.send_parity (s : State) (o : Output) : (s.send o).parity = s.parity := rfl
@[simp] theorem State.send_podn (s : State) (o : Output) : (s.send o).podn = s.podn := rfl
@[simp] theorem State.send_pkg (s : State) (o : Output) : (s.send o).pkg = s.pkg := rfl
@[simp] theorem State.send_fe (s : State) (o : Output) : (s.send o).fe = s.fe := rfl
@[simp] theorem State.send_queues (s : State) (o : Output) : (s.send o).queues = s.queues := rfl
@[simp] theorem State.send_graphs (s : State) (o : Output) : (s.send o).graphs = s.graphs := rfl
@[simp] theorem State.send_replays (s : State) (o : Output) : (s.send o).replays = s.replays := rfl
@[simp] theorem State.send_crown (s : State) (o : Output) : (s.send o).crown = s.crown := rfl
@[simp] theorem State.send_powered (s : State) (o : Output) : (s.send o).powered = s.powered := rfl
@[simp] theorem State.send_hostMem (s : State) (o : Output) : (s.send o).hostMem = s.hostMem := rfl
@[simp] theorem State.send_out (s : State) (o : Output) : (s.send o).out = s.out ++ [o] := rfl
@[simp] theorem State.send_agenda (s : State) (o : Output) : (s.send o).agenda = s.agenda := rfl
@[simp] theorem State.send_clock (s : State) (o : Output) : (s.send o).clock = s.clock := rfl
@[simp] theorem State.send_fresh (s : State) (o : Output) : (s.send o).fresh = s.fresh := rfl
@[simp] theorem State.send_nextId (s : State) (o : Output) : (s.send o).nextId = s.nextId := rfl

/-! ### raise -/

@[simp] theorem State.raise_cur (s : State) (e : Event) (h : Option Nat) : (s.raise e h).cur = s.cur := rfl
@[simp] theorem State.raise_picked (s : State) (e : Event) (h : Option Nat) : (s.raise e h).picked = s.picked := rfl
@[simp] theorem State.raise_harts (s : State) (e : Event) (h : Option Nat) : (s.raise e h).harts = s.harts := rfl
@[simp] theorem State.raise_groups (s : State) (e : Event) (h : Option Nat) : (s.raise e h).groups = s.groups := rfl
@[simp] theorem State.raise_gangs (s : State) (e : Event) (h : Option Nat) : (s.raise e h).gangs = s.gangs := rfl
@[simp] theorem State.raise_launches (s : State) (e : Event) (h : Option Nat) : (s.raise e h).launches = s.launches := rfl
@[simp] theorem State.raise_clusters (s : State) (e : Event) (h : Option Nat) : (s.raise e h).clusters = s.clusters := rfl
@[simp] theorem State.raise_cores (s : State) (e : Event) (h : Option Nat) : (s.raise e h).cores = s.cores := rfl
@[simp] theorem State.raise_dies (s : State) (e : Event) (h : Option Nat) : (s.raise e h).dies = s.dies := rfl
@[simp] theorem State.raise_mem (s : State) (e : Event) (h : Option Nat) : (s.raise e h).mem = s.mem := rfl
@[simp] theorem State.raise_memBad (s : State) (e : Event) (h : Option Nat) : (s.raise e h).memBad = s.memBad := rfl
@[simp] theorem State.raise_copies (s : State) (e : Event) (h : Option Nat) : (s.raise e h).copies = s.copies := rfl
@[simp] theorem State.raise_homeVer (s : State) (e : Event) (h : Option Nat) : (s.raise e h).homeVer = s.homeVer := rfl
@[simp] theorem State.raise_version (s : State) (e : Event) (h : Option Nat) : (s.raise e h).version = s.version := rfl
@[simp] theorem State.raise_syncs (s : State) (e : Event) (h : Option Nat) : (s.raise e h).syncs = s.syncs := rfl
@[simp] theorem State.raise_spans (s : State) (e : Event) (h : Option Nat) : (s.raise e h).spans = s.spans := rfl
@[simp] theorem State.raise_sharers (s : State) (e : Event) (h : Option Nat) : (s.raise e h).sharers = s.sharers := rfl
@[simp] theorem State.raise_served (s : State) (e : Event) (h : Option Nat) : (s.raise e h).served = s.served := rfl
@[simp] theorem State.raise_servedAt (s : State) (e : Event) (h : Option Nat) : (s.raise e h).servedAt = s.servedAt := rfl
@[simp] theorem State.raise_tlb (s : State) (e : Event) (h : Option Nat) : (s.raise e h).tlb = s.tlb := rfl
@[simp] theorem State.raise_held (s : State) (e : Event) (h : Option Nat) : (s.raise e h).held = s.held := rfl
@[simp] theorem State.raise_cmds (s : State) (e : Event) (h : Option Nat) : (s.raise e h).cmds = s.cmds := rfl
@[simp] theorem State.raise_extents (s : State) (e : Event) (h : Option Nat) : (s.raise e h).extents = s.extents := rfl
@[simp] theorem State.raise_portErrors (s : State) (e : Event) (h : Option Nat) : (s.raise e h).portErrors = s.portErrors := rfl
@[simp] theorem State.raise_devs (s : State) (e : Event) (h : Option Nat) : (s.raise e h).devs = s.devs := rfl
@[simp] theorem State.raise_peers (s : State) (e : Event) (h : Option Nat) : (s.raise e h).peers = s.peers := rfl
@[simp] theorem State.raise_fabric (s : State) (e : Event) (h : Option Nat) : (s.raise e h).fabric = s.fabric := rfl
@[simp] theorem State.raise_downLinks (s : State) (e : Event) (h : Option Nat) : (s.raise e h).downLinks = s.downLinks := rfl
@[simp] theorem State.raise_arrivals (s : State) (e : Event) (h : Option Nat) : (s.raise e h).arrivals = s.arrivals := rfl
@[simp] theorem State.raise_records (s : State) (e : Event) (h : Option Nat) : (s.raise e h).records = s.records := rfl
@[simp] theorem State.raise_parity (s : State) (e : Event) (h : Option Nat) : (s.raise e h).parity = s.parity := rfl
@[simp] theorem State.raise_podn (s : State) (e : Event) (h : Option Nat) : (s.raise e h).podn = s.podn := rfl
@[simp] theorem State.raise_pkg (s : State) (e : Event) (h : Option Nat) : (s.raise e h).pkg = s.pkg := rfl
@[simp] theorem State.raise_fe (s : State) (e : Event) (h : Option Nat) : (s.raise e h).fe = { s.fe with raised := s.fe.raised ++ [{ at_ := s.clock, hart := h, e := e }] } := rfl
@[simp] theorem State.raise_queues (s : State) (e : Event) (h : Option Nat) : (s.raise e h).queues = s.queues := rfl
@[simp] theorem State.raise_graphs (s : State) (e : Event) (h : Option Nat) : (s.raise e h).graphs = s.graphs := rfl
@[simp] theorem State.raise_replays (s : State) (e : Event) (h : Option Nat) : (s.raise e h).replays = s.replays := rfl
@[simp] theorem State.raise_crown (s : State) (e : Event) (h : Option Nat) : (s.raise e h).crown = s.crown := rfl
@[simp] theorem State.raise_powered (s : State) (e : Event) (h : Option Nat) : (s.raise e h).powered = s.powered := rfl
@[simp] theorem State.raise_hostMem (s : State) (e : Event) (h : Option Nat) : (s.raise e h).hostMem = s.hostMem := rfl
@[simp] theorem State.raise_out (s : State) (e : Event) (h : Option Nat) : (s.raise e h).out = s.out := rfl
@[simp] theorem State.raise_agenda (s : State) (e : Event) (h : Option Nat) : (s.raise e h).agenda = s.agenda := rfl
@[simp] theorem State.raise_clock (s : State) (e : Event) (h : Option Nat) : (s.raise e h).clock = s.clock := rfl
@[simp] theorem State.raise_fresh (s : State) (e : Event) (h : Option Nat) : (s.raise e h).fresh = s.fresh := rfl
@[simp] theorem State.raise_nextId (s : State) (e : Event) (h : Option Nat) : (s.raise e h).nextId = s.nextId := rfl

/-! ### mapRegs -/

@[simp] theorem State.mapRegs_cur_id (s : State) (f : Regs → Regs) : (s.mapRegs f).cur.id = s.cur.id := rfl
@[simp] theorem State.mapRegs_cur_role (s : State) (f : Regs → Regs) : (s.mapRegs f).cur.role = s.cur.role := rfl
@[simp] theorem State.mapRegs_cur_live (s : State) (f : Regs → Regs) : (s.mapRegs f).cur.live = s.cur.live := rfl
@[simp] theorem State.mapRegs_cur_pl (s : State) (f : Regs → Regs) : (s.mapRegs f).cur.pl = s.cur.pl := rfl
@[simp] theorem State.mapRegs_cur_r (s : State) (f : Regs → Regs) : (s.mapRegs f).cur.r = f s.cur.r := rfl
@[simp] theorem State.mapRegs_cur_c (s : State) (f : Regs → Regs) : (s.mapRegs f).cur.c = s.cur.c := rfl
@[simp] theorem State.mapRegs_cur_y (s : State) (f : Regs → Regs) : (s.mapRegs f).cur.y = s.cur.y := rfl
@[simp] theorem State.mapRegs_cur_t (s : State) (f : Regs → Regs) : (s.mapRegs f).cur.t = s.cur.t := rfl
@[simp] theorem State.mapRegs_cur_m (s : State) (f : Regs → Regs) : (s.mapRegs f).cur.m = s.cur.m := rfl
@[simp] theorem State.mapRegs_cur_sch (s : State) (f : Regs → Regs) : (s.mapRegs f).cur.sch = s.cur.sch := rfl
@[simp] theorem State.mapRegs_cur_bow (s : State) (f : Regs → Regs) : (s.mapRegs f).cur.bow = s.cur.bow := rfl
@[simp] theorem State.mapRegs_picked (s : State) (f : Regs → Regs) : (s.mapRegs f).picked = s.picked := rfl
@[simp] theorem State.mapRegs_harts (s : State) (f : Regs → Regs) : (s.mapRegs f).harts = s.harts := rfl
@[simp] theorem State.mapRegs_groups (s : State) (f : Regs → Regs) : (s.mapRegs f).groups = s.groups := rfl
@[simp] theorem State.mapRegs_gangs (s : State) (f : Regs → Regs) : (s.mapRegs f).gangs = s.gangs := rfl
@[simp] theorem State.mapRegs_launches (s : State) (f : Regs → Regs) : (s.mapRegs f).launches = s.launches := rfl
@[simp] theorem State.mapRegs_clusters (s : State) (f : Regs → Regs) : (s.mapRegs f).clusters = s.clusters := rfl
@[simp] theorem State.mapRegs_cores (s : State) (f : Regs → Regs) : (s.mapRegs f).cores = s.cores := rfl
@[simp] theorem State.mapRegs_dies (s : State) (f : Regs → Regs) : (s.mapRegs f).dies = s.dies := rfl
@[simp] theorem State.mapRegs_mem (s : State) (f : Regs → Regs) : (s.mapRegs f).mem = s.mem := rfl
@[simp] theorem State.mapRegs_memBad (s : State) (f : Regs → Regs) : (s.mapRegs f).memBad = s.memBad := rfl
@[simp] theorem State.mapRegs_copies (s : State) (f : Regs → Regs) : (s.mapRegs f).copies = s.copies := rfl
@[simp] theorem State.mapRegs_homeVer (s : State) (f : Regs → Regs) : (s.mapRegs f).homeVer = s.homeVer := rfl
@[simp] theorem State.mapRegs_version (s : State) (f : Regs → Regs) : (s.mapRegs f).version = s.version := rfl
@[simp] theorem State.mapRegs_syncs (s : State) (f : Regs → Regs) : (s.mapRegs f).syncs = s.syncs := rfl
@[simp] theorem State.mapRegs_spans (s : State) (f : Regs → Regs) : (s.mapRegs f).spans = s.spans := rfl
@[simp] theorem State.mapRegs_sharers (s : State) (f : Regs → Regs) : (s.mapRegs f).sharers = s.sharers := rfl
@[simp] theorem State.mapRegs_served (s : State) (f : Regs → Regs) : (s.mapRegs f).served = s.served := rfl
@[simp] theorem State.mapRegs_servedAt (s : State) (f : Regs → Regs) : (s.mapRegs f).servedAt = s.servedAt := rfl
@[simp] theorem State.mapRegs_tlb (s : State) (f : Regs → Regs) : (s.mapRegs f).tlb = s.tlb := rfl
@[simp] theorem State.mapRegs_held (s : State) (f : Regs → Regs) : (s.mapRegs f).held = s.held := rfl
@[simp] theorem State.mapRegs_cmds (s : State) (f : Regs → Regs) : (s.mapRegs f).cmds = s.cmds := rfl
@[simp] theorem State.mapRegs_extents (s : State) (f : Regs → Regs) : (s.mapRegs f).extents = s.extents := rfl
@[simp] theorem State.mapRegs_portErrors (s : State) (f : Regs → Regs) : (s.mapRegs f).portErrors = s.portErrors := rfl
@[simp] theorem State.mapRegs_devs (s : State) (f : Regs → Regs) : (s.mapRegs f).devs = s.devs := rfl
@[simp] theorem State.mapRegs_peers (s : State) (f : Regs → Regs) : (s.mapRegs f).peers = s.peers := rfl
@[simp] theorem State.mapRegs_fabric (s : State) (f : Regs → Regs) : (s.mapRegs f).fabric = s.fabric := rfl
@[simp] theorem State.mapRegs_downLinks (s : State) (f : Regs → Regs) : (s.mapRegs f).downLinks = s.downLinks := rfl
@[simp] theorem State.mapRegs_arrivals (s : State) (f : Regs → Regs) : (s.mapRegs f).arrivals = s.arrivals := rfl
@[simp] theorem State.mapRegs_records (s : State) (f : Regs → Regs) : (s.mapRegs f).records = s.records := rfl
@[simp] theorem State.mapRegs_parity (s : State) (f : Regs → Regs) : (s.mapRegs f).parity = s.parity := rfl
@[simp] theorem State.mapRegs_podn (s : State) (f : Regs → Regs) : (s.mapRegs f).podn = s.podn := rfl
@[simp] theorem State.mapRegs_pkg (s : State) (f : Regs → Regs) : (s.mapRegs f).pkg = s.pkg := rfl
@[simp] theorem State.mapRegs_fe (s : State) (f : Regs → Regs) : (s.mapRegs f).fe = s.fe := rfl
@[simp] theorem State.mapRegs_queues (s : State) (f : Regs → Regs) : (s.mapRegs f).queues = s.queues := rfl
@[simp] theorem State.mapRegs_graphs (s : State) (f : Regs → Regs) : (s.mapRegs f).graphs = s.graphs := rfl
@[simp] theorem State.mapRegs_replays (s : State) (f : Regs → Regs) : (s.mapRegs f).replays = s.replays := rfl
@[simp] theorem State.mapRegs_crown (s : State) (f : Regs → Regs) : (s.mapRegs f).crown = s.crown := rfl
@[simp] theorem State.mapRegs_powered (s : State) (f : Regs → Regs) : (s.mapRegs f).powered = s.powered := rfl
@[simp] theorem State.mapRegs_hostMem (s : State) (f : Regs → Regs) : (s.mapRegs f).hostMem = s.hostMem := rfl
@[simp] theorem State.mapRegs_out (s : State) (f : Regs → Regs) : (s.mapRegs f).out = s.out := rfl
@[simp] theorem State.mapRegs_agenda (s : State) (f : Regs → Regs) : (s.mapRegs f).agenda = s.agenda := rfl
@[simp] theorem State.mapRegs_clock (s : State) (f : Regs → Regs) : (s.mapRegs f).clock = s.clock := rfl
@[simp] theorem State.mapRegs_fresh (s : State) (f : Regs → Regs) : (s.mapRegs f).fresh = s.fresh := rfl
@[simp] theorem State.mapRegs_nextId (s : State) (f : Regs → Regs) : (s.mapRegs f).nextId = s.nextId := rfl

/-! ### mapCtl -/

@[simp] theorem State.mapCtl_cur_id (s : State) (f : Control → Control) : (s.mapCtl f).cur.id = s.cur.id := rfl
@[simp] theorem State.mapCtl_cur_role (s : State) (f : Control → Control) : (s.mapCtl f).cur.role = s.cur.role := rfl
@[simp] theorem State.mapCtl_cur_live (s : State) (f : Control → Control) : (s.mapCtl f).cur.live = s.cur.live := rfl
@[simp] theorem State.mapCtl_cur_pl (s : State) (f : Control → Control) : (s.mapCtl f).cur.pl = s.cur.pl := rfl
@[simp] theorem State.mapCtl_cur_r (s : State) (f : Control → Control) : (s.mapCtl f).cur.r = s.cur.r := rfl
@[simp] theorem State.mapCtl_cur_c (s : State) (f : Control → Control) : (s.mapCtl f).cur.c = f s.cur.c := rfl
@[simp] theorem State.mapCtl_cur_y (s : State) (f : Control → Control) : (s.mapCtl f).cur.y = s.cur.y := rfl
@[simp] theorem State.mapCtl_cur_t (s : State) (f : Control → Control) : (s.mapCtl f).cur.t = s.cur.t := rfl
@[simp] theorem State.mapCtl_cur_m (s : State) (f : Control → Control) : (s.mapCtl f).cur.m = s.cur.m := rfl
@[simp] theorem State.mapCtl_cur_sch (s : State) (f : Control → Control) : (s.mapCtl f).cur.sch = s.cur.sch := rfl
@[simp] theorem State.mapCtl_cur_bow (s : State) (f : Control → Control) : (s.mapCtl f).cur.bow = s.cur.bow := rfl
@[simp] theorem State.mapCtl_picked (s : State) (f : Control → Control) : (s.mapCtl f).picked = s.picked := rfl
@[simp] theorem State.mapCtl_harts (s : State) (f : Control → Control) : (s.mapCtl f).harts = s.harts := rfl
@[simp] theorem State.mapCtl_groups (s : State) (f : Control → Control) : (s.mapCtl f).groups = s.groups := rfl
@[simp] theorem State.mapCtl_gangs (s : State) (f : Control → Control) : (s.mapCtl f).gangs = s.gangs := rfl
@[simp] theorem State.mapCtl_launches (s : State) (f : Control → Control) : (s.mapCtl f).launches = s.launches := rfl
@[simp] theorem State.mapCtl_clusters (s : State) (f : Control → Control) : (s.mapCtl f).clusters = s.clusters := rfl
@[simp] theorem State.mapCtl_cores (s : State) (f : Control → Control) : (s.mapCtl f).cores = s.cores := rfl
@[simp] theorem State.mapCtl_dies (s : State) (f : Control → Control) : (s.mapCtl f).dies = s.dies := rfl
@[simp] theorem State.mapCtl_mem (s : State) (f : Control → Control) : (s.mapCtl f).mem = s.mem := rfl
@[simp] theorem State.mapCtl_memBad (s : State) (f : Control → Control) : (s.mapCtl f).memBad = s.memBad := rfl
@[simp] theorem State.mapCtl_copies (s : State) (f : Control → Control) : (s.mapCtl f).copies = s.copies := rfl
@[simp] theorem State.mapCtl_homeVer (s : State) (f : Control → Control) : (s.mapCtl f).homeVer = s.homeVer := rfl
@[simp] theorem State.mapCtl_version (s : State) (f : Control → Control) : (s.mapCtl f).version = s.version := rfl
@[simp] theorem State.mapCtl_syncs (s : State) (f : Control → Control) : (s.mapCtl f).syncs = s.syncs := rfl
@[simp] theorem State.mapCtl_spans (s : State) (f : Control → Control) : (s.mapCtl f).spans = s.spans := rfl
@[simp] theorem State.mapCtl_sharers (s : State) (f : Control → Control) : (s.mapCtl f).sharers = s.sharers := rfl
@[simp] theorem State.mapCtl_served (s : State) (f : Control → Control) : (s.mapCtl f).served = s.served := rfl
@[simp] theorem State.mapCtl_servedAt (s : State) (f : Control → Control) : (s.mapCtl f).servedAt = s.servedAt := rfl
@[simp] theorem State.mapCtl_tlb (s : State) (f : Control → Control) : (s.mapCtl f).tlb = s.tlb := rfl
@[simp] theorem State.mapCtl_held (s : State) (f : Control → Control) : (s.mapCtl f).held = s.held := rfl
@[simp] theorem State.mapCtl_cmds (s : State) (f : Control → Control) : (s.mapCtl f).cmds = s.cmds := rfl
@[simp] theorem State.mapCtl_extents (s : State) (f : Control → Control) : (s.mapCtl f).extents = s.extents := rfl
@[simp] theorem State.mapCtl_portErrors (s : State) (f : Control → Control) : (s.mapCtl f).portErrors = s.portErrors := rfl
@[simp] theorem State.mapCtl_devs (s : State) (f : Control → Control) : (s.mapCtl f).devs = s.devs := rfl
@[simp] theorem State.mapCtl_peers (s : State) (f : Control → Control) : (s.mapCtl f).peers = s.peers := rfl
@[simp] theorem State.mapCtl_fabric (s : State) (f : Control → Control) : (s.mapCtl f).fabric = s.fabric := rfl
@[simp] theorem State.mapCtl_downLinks (s : State) (f : Control → Control) : (s.mapCtl f).downLinks = s.downLinks := rfl
@[simp] theorem State.mapCtl_arrivals (s : State) (f : Control → Control) : (s.mapCtl f).arrivals = s.arrivals := rfl
@[simp] theorem State.mapCtl_records (s : State) (f : Control → Control) : (s.mapCtl f).records = s.records := rfl
@[simp] theorem State.mapCtl_parity (s : State) (f : Control → Control) : (s.mapCtl f).parity = s.parity := rfl
@[simp] theorem State.mapCtl_podn (s : State) (f : Control → Control) : (s.mapCtl f).podn = s.podn := rfl
@[simp] theorem State.mapCtl_pkg (s : State) (f : Control → Control) : (s.mapCtl f).pkg = s.pkg := rfl
@[simp] theorem State.mapCtl_fe (s : State) (f : Control → Control) : (s.mapCtl f).fe = s.fe := rfl
@[simp] theorem State.mapCtl_queues (s : State) (f : Control → Control) : (s.mapCtl f).queues = s.queues := rfl
@[simp] theorem State.mapCtl_graphs (s : State) (f : Control → Control) : (s.mapCtl f).graphs = s.graphs := rfl
@[simp] theorem State.mapCtl_replays (s : State) (f : Control → Control) : (s.mapCtl f).replays = s.replays := rfl
@[simp] theorem State.mapCtl_crown (s : State) (f : Control → Control) : (s.mapCtl f).crown = s.crown := rfl
@[simp] theorem State.mapCtl_powered (s : State) (f : Control → Control) : (s.mapCtl f).powered = s.powered := rfl
@[simp] theorem State.mapCtl_hostMem (s : State) (f : Control → Control) : (s.mapCtl f).hostMem = s.hostMem := rfl
@[simp] theorem State.mapCtl_out (s : State) (f : Control → Control) : (s.mapCtl f).out = s.out := rfl
@[simp] theorem State.mapCtl_agenda (s : State) (f : Control → Control) : (s.mapCtl f).agenda = s.agenda := rfl
@[simp] theorem State.mapCtl_clock (s : State) (f : Control → Control) : (s.mapCtl f).clock = s.clock := rfl
@[simp] theorem State.mapCtl_fresh (s : State) (f : Control → Control) : (s.mapCtl f).fresh = s.fresh := rfl
@[simp] theorem State.mapCtl_nextId (s : State) (f : Control → Control) : (s.mapCtl f).nextId = s.nextId := rfl

/-! ### mapAcc -/

@[simp] theorem State.mapAcc_cur_id (s : State) (f : Accesses → Accesses) : (s.mapAcc f).cur.id = s.cur.id := rfl
@[simp] theorem State.mapAcc_cur_role (s : State) (f : Accesses → Accesses) : (s.mapAcc f).cur.role = s.cur.role := rfl
@[simp] theorem State.mapAcc_cur_live (s : State) (f : Accesses → Accesses) : (s.mapAcc f).cur.live = s.cur.live := rfl
@[simp] theorem State.mapAcc_cur_pl (s : State) (f : Accesses → Accesses) : (s.mapAcc f).cur.pl = s.cur.pl := rfl
@[simp] theorem State.mapAcc_cur_r (s : State) (f : Accesses → Accesses) : (s.mapAcc f).cur.r = s.cur.r := rfl
@[simp] theorem State.mapAcc_cur_c (s : State) (f : Accesses → Accesses) : (s.mapAcc f).cur.c = s.cur.c := rfl
@[simp] theorem State.mapAcc_cur_y (s : State) (f : Accesses → Accesses) : (s.mapAcc f).cur.y = s.cur.y := rfl
@[simp] theorem State.mapAcc_cur_t (s : State) (f : Accesses → Accesses) : (s.mapAcc f).cur.t = s.cur.t := rfl
@[simp] theorem State.mapAcc_cur_m (s : State) (f : Accesses → Accesses) : (s.mapAcc f).cur.m = f s.cur.m := rfl
@[simp] theorem State.mapAcc_cur_sch (s : State) (f : Accesses → Accesses) : (s.mapAcc f).cur.sch = s.cur.sch := rfl
@[simp] theorem State.mapAcc_cur_bow (s : State) (f : Accesses → Accesses) : (s.mapAcc f).cur.bow = s.cur.bow := rfl
@[simp] theorem State.mapAcc_picked (s : State) (f : Accesses → Accesses) : (s.mapAcc f).picked = s.picked := rfl
@[simp] theorem State.mapAcc_harts (s : State) (f : Accesses → Accesses) : (s.mapAcc f).harts = s.harts := rfl
@[simp] theorem State.mapAcc_groups (s : State) (f : Accesses → Accesses) : (s.mapAcc f).groups = s.groups := rfl
@[simp] theorem State.mapAcc_gangs (s : State) (f : Accesses → Accesses) : (s.mapAcc f).gangs = s.gangs := rfl
@[simp] theorem State.mapAcc_launches (s : State) (f : Accesses → Accesses) : (s.mapAcc f).launches = s.launches := rfl
@[simp] theorem State.mapAcc_clusters (s : State) (f : Accesses → Accesses) : (s.mapAcc f).clusters = s.clusters := rfl
@[simp] theorem State.mapAcc_cores (s : State) (f : Accesses → Accesses) : (s.mapAcc f).cores = s.cores := rfl
@[simp] theorem State.mapAcc_dies (s : State) (f : Accesses → Accesses) : (s.mapAcc f).dies = s.dies := rfl
@[simp] theorem State.mapAcc_mem (s : State) (f : Accesses → Accesses) : (s.mapAcc f).mem = s.mem := rfl
@[simp] theorem State.mapAcc_memBad (s : State) (f : Accesses → Accesses) : (s.mapAcc f).memBad = s.memBad := rfl
@[simp] theorem State.mapAcc_copies (s : State) (f : Accesses → Accesses) : (s.mapAcc f).copies = s.copies := rfl
@[simp] theorem State.mapAcc_homeVer (s : State) (f : Accesses → Accesses) : (s.mapAcc f).homeVer = s.homeVer := rfl
@[simp] theorem State.mapAcc_version (s : State) (f : Accesses → Accesses) : (s.mapAcc f).version = s.version := rfl
@[simp] theorem State.mapAcc_syncs (s : State) (f : Accesses → Accesses) : (s.mapAcc f).syncs = s.syncs := rfl
@[simp] theorem State.mapAcc_spans (s : State) (f : Accesses → Accesses) : (s.mapAcc f).spans = s.spans := rfl
@[simp] theorem State.mapAcc_sharers (s : State) (f : Accesses → Accesses) : (s.mapAcc f).sharers = s.sharers := rfl
@[simp] theorem State.mapAcc_served (s : State) (f : Accesses → Accesses) : (s.mapAcc f).served = s.served := rfl
@[simp] theorem State.mapAcc_servedAt (s : State) (f : Accesses → Accesses) : (s.mapAcc f).servedAt = s.servedAt := rfl
@[simp] theorem State.mapAcc_tlb (s : State) (f : Accesses → Accesses) : (s.mapAcc f).tlb = s.tlb := rfl
@[simp] theorem State.mapAcc_held (s : State) (f : Accesses → Accesses) : (s.mapAcc f).held = s.held := rfl
@[simp] theorem State.mapAcc_cmds (s : State) (f : Accesses → Accesses) : (s.mapAcc f).cmds = s.cmds := rfl
@[simp] theorem State.mapAcc_extents (s : State) (f : Accesses → Accesses) : (s.mapAcc f).extents = s.extents := rfl
@[simp] theorem State.mapAcc_portErrors (s : State) (f : Accesses → Accesses) : (s.mapAcc f).portErrors = s.portErrors := rfl
@[simp] theorem State.mapAcc_devs (s : State) (f : Accesses → Accesses) : (s.mapAcc f).devs = s.devs := rfl
@[simp] theorem State.mapAcc_peers (s : State) (f : Accesses → Accesses) : (s.mapAcc f).peers = s.peers := rfl
@[simp] theorem State.mapAcc_fabric (s : State) (f : Accesses → Accesses) : (s.mapAcc f).fabric = s.fabric := rfl
@[simp] theorem State.mapAcc_downLinks (s : State) (f : Accesses → Accesses) : (s.mapAcc f).downLinks = s.downLinks := rfl
@[simp] theorem State.mapAcc_arrivals (s : State) (f : Accesses → Accesses) : (s.mapAcc f).arrivals = s.arrivals := rfl
@[simp] theorem State.mapAcc_records (s : State) (f : Accesses → Accesses) : (s.mapAcc f).records = s.records := rfl
@[simp] theorem State.mapAcc_parity (s : State) (f : Accesses → Accesses) : (s.mapAcc f).parity = s.parity := rfl
@[simp] theorem State.mapAcc_podn (s : State) (f : Accesses → Accesses) : (s.mapAcc f).podn = s.podn := rfl
@[simp] theorem State.mapAcc_pkg (s : State) (f : Accesses → Accesses) : (s.mapAcc f).pkg = s.pkg := rfl
@[simp] theorem State.mapAcc_fe (s : State) (f : Accesses → Accesses) : (s.mapAcc f).fe = s.fe := rfl
@[simp] theorem State.mapAcc_queues (s : State) (f : Accesses → Accesses) : (s.mapAcc f).queues = s.queues := rfl
@[simp] theorem State.mapAcc_graphs (s : State) (f : Accesses → Accesses) : (s.mapAcc f).graphs = s.graphs := rfl
@[simp] theorem State.mapAcc_replays (s : State) (f : Accesses → Accesses) : (s.mapAcc f).replays = s.replays := rfl
@[simp] theorem State.mapAcc_crown (s : State) (f : Accesses → Accesses) : (s.mapAcc f).crown = s.crown := rfl
@[simp] theorem State.mapAcc_powered (s : State) (f : Accesses → Accesses) : (s.mapAcc f).powered = s.powered := rfl
@[simp] theorem State.mapAcc_hostMem (s : State) (f : Accesses → Accesses) : (s.mapAcc f).hostMem = s.hostMem := rfl
@[simp] theorem State.mapAcc_out (s : State) (f : Accesses → Accesses) : (s.mapAcc f).out = s.out := rfl
@[simp] theorem State.mapAcc_agenda (s : State) (f : Accesses → Accesses) : (s.mapAcc f).agenda = s.agenda := rfl
@[simp] theorem State.mapAcc_clock (s : State) (f : Accesses → Accesses) : (s.mapAcc f).clock = s.clock := rfl
@[simp] theorem State.mapAcc_fresh (s : State) (f : Accesses → Accesses) : (s.mapAcc f).fresh = s.fresh := rfl
@[simp] theorem State.mapAcc_nextId (s : State) (f : Accesses → Accesses) : (s.mapAcc f).nextId = s.nextId := rfl

/-! ### setFlg and addFlags -/

@[simp] theorem State.setFlg_cur_id (s : State) (x : Dword) : (s.setFlg x).cur.id = s.cur.id := rfl
@[simp] theorem State.setFlg_cur_role (s : State) (x : Dword) : (s.setFlg x).cur.role = s.cur.role := rfl
@[simp] theorem State.setFlg_cur_live (s : State) (x : Dword) : (s.setFlg x).cur.live = s.cur.live := rfl
@[simp] theorem State.setFlg_cur_pl (s : State) (x : Dword) : (s.setFlg x).cur.pl = s.cur.pl := rfl
@[simp] theorem State.setFlg_cur_r (s : State) (x : Dword) : (s.setFlg x).cur.r = s.cur.r := rfl
@[simp] theorem State.setFlg_cur_c (s : State) (x : Dword) : (s.setFlg x).cur.c = s.cur.c := rfl
@[simp] theorem State.setFlg_cur_y (s : State) (x : Dword) : (s.setFlg x).cur.y = { s.cur.y with flg := x } := rfl
@[simp] theorem State.setFlg_cur_t (s : State) (x : Dword) : (s.setFlg x).cur.t = s.cur.t := rfl
@[simp] theorem State.setFlg_cur_m (s : State) (x : Dword) : (s.setFlg x).cur.m = s.cur.m := rfl
@[simp] theorem State.setFlg_cur_sch (s : State) (x : Dword) : (s.setFlg x).cur.sch = s.cur.sch := rfl
@[simp] theorem State.setFlg_cur_bow (s : State) (x : Dword) : (s.setFlg x).cur.bow = s.cur.bow := rfl
@[simp] theorem State.setFlg_picked (s : State) (x : Dword) : (s.setFlg x).picked = s.picked := rfl
@[simp] theorem State.setFlg_harts (s : State) (x : Dword) : (s.setFlg x).harts = s.harts := rfl
@[simp] theorem State.setFlg_groups (s : State) (x : Dword) : (s.setFlg x).groups = s.groups := rfl
@[simp] theorem State.setFlg_gangs (s : State) (x : Dword) : (s.setFlg x).gangs = s.gangs := rfl
@[simp] theorem State.setFlg_launches (s : State) (x : Dword) : (s.setFlg x).launches = s.launches := rfl
@[simp] theorem State.setFlg_clusters (s : State) (x : Dword) : (s.setFlg x).clusters = s.clusters := rfl
@[simp] theorem State.setFlg_cores (s : State) (x : Dword) : (s.setFlg x).cores = s.cores := rfl
@[simp] theorem State.setFlg_dies (s : State) (x : Dword) : (s.setFlg x).dies = s.dies := rfl
@[simp] theorem State.setFlg_mem (s : State) (x : Dword) : (s.setFlg x).mem = s.mem := rfl
@[simp] theorem State.setFlg_memBad (s : State) (x : Dword) : (s.setFlg x).memBad = s.memBad := rfl
@[simp] theorem State.setFlg_copies (s : State) (x : Dword) : (s.setFlg x).copies = s.copies := rfl
@[simp] theorem State.setFlg_homeVer (s : State) (x : Dword) : (s.setFlg x).homeVer = s.homeVer := rfl
@[simp] theorem State.setFlg_version (s : State) (x : Dword) : (s.setFlg x).version = s.version := rfl
@[simp] theorem State.setFlg_syncs (s : State) (x : Dword) : (s.setFlg x).syncs = s.syncs := rfl
@[simp] theorem State.setFlg_spans (s : State) (x : Dword) : (s.setFlg x).spans = s.spans := rfl
@[simp] theorem State.setFlg_sharers (s : State) (x : Dword) : (s.setFlg x).sharers = s.sharers := rfl
@[simp] theorem State.setFlg_served (s : State) (x : Dword) : (s.setFlg x).served = s.served := rfl
@[simp] theorem State.setFlg_servedAt (s : State) (x : Dword) : (s.setFlg x).servedAt = s.servedAt := rfl
@[simp] theorem State.setFlg_tlb (s : State) (x : Dword) : (s.setFlg x).tlb = s.tlb := rfl
@[simp] theorem State.setFlg_held (s : State) (x : Dword) : (s.setFlg x).held = s.held := rfl
@[simp] theorem State.setFlg_cmds (s : State) (x : Dword) : (s.setFlg x).cmds = s.cmds := rfl
@[simp] theorem State.setFlg_extents (s : State) (x : Dword) : (s.setFlg x).extents = s.extents := rfl
@[simp] theorem State.setFlg_portErrors (s : State) (x : Dword) : (s.setFlg x).portErrors = s.portErrors := rfl
@[simp] theorem State.setFlg_devs (s : State) (x : Dword) : (s.setFlg x).devs = s.devs := rfl
@[simp] theorem State.setFlg_peers (s : State) (x : Dword) : (s.setFlg x).peers = s.peers := rfl
@[simp] theorem State.setFlg_fabric (s : State) (x : Dword) : (s.setFlg x).fabric = s.fabric := rfl
@[simp] theorem State.setFlg_downLinks (s : State) (x : Dword) : (s.setFlg x).downLinks = s.downLinks := rfl
@[simp] theorem State.setFlg_arrivals (s : State) (x : Dword) : (s.setFlg x).arrivals = s.arrivals := rfl
@[simp] theorem State.setFlg_records (s : State) (x : Dword) : (s.setFlg x).records = s.records := rfl
@[simp] theorem State.setFlg_parity (s : State) (x : Dword) : (s.setFlg x).parity = s.parity := rfl
@[simp] theorem State.setFlg_podn (s : State) (x : Dword) : (s.setFlg x).podn = s.podn := rfl
@[simp] theorem State.setFlg_pkg (s : State) (x : Dword) : (s.setFlg x).pkg = s.pkg := rfl
@[simp] theorem State.setFlg_fe (s : State) (x : Dword) : (s.setFlg x).fe = s.fe := rfl
@[simp] theorem State.setFlg_queues (s : State) (x : Dword) : (s.setFlg x).queues = s.queues := rfl
@[simp] theorem State.setFlg_graphs (s : State) (x : Dword) : (s.setFlg x).graphs = s.graphs := rfl
@[simp] theorem State.setFlg_replays (s : State) (x : Dword) : (s.setFlg x).replays = s.replays := rfl
@[simp] theorem State.setFlg_crown (s : State) (x : Dword) : (s.setFlg x).crown = s.crown := rfl
@[simp] theorem State.setFlg_powered (s : State) (x : Dword) : (s.setFlg x).powered = s.powered := rfl
@[simp] theorem State.setFlg_hostMem (s : State) (x : Dword) : (s.setFlg x).hostMem = s.hostMem := rfl
@[simp] theorem State.setFlg_out (s : State) (x : Dword) : (s.setFlg x).out = s.out := rfl
@[simp] theorem State.setFlg_agenda (s : State) (x : Dword) : (s.setFlg x).agenda = s.agenda := rfl
@[simp] theorem State.setFlg_clock (s : State) (x : Dword) : (s.setFlg x).clock = s.clock := rfl
@[simp] theorem State.setFlg_fresh (s : State) (x : Dword) : (s.setFlg x).fresh = s.fresh := rfl
@[simp] theorem State.setFlg_nextId (s : State) (x : Dword) : (s.setFlg x).nextId = s.nextId := rfl
@[simp] theorem State.addFlags_cur_id (s : State) (x : Flags) : (s.addFlags x).cur.id = s.cur.id := rfl
@[simp] theorem State.addFlags_cur_role (s : State) (x : Flags) : (s.addFlags x).cur.role = s.cur.role := rfl
@[simp] theorem State.addFlags_cur_live (s : State) (x : Flags) : (s.addFlags x).cur.live = s.cur.live := rfl
@[simp] theorem State.addFlags_cur_pl (s : State) (x : Flags) : (s.addFlags x).cur.pl = s.cur.pl := rfl
@[simp] theorem State.addFlags_cur_r (s : State) (x : Flags) : (s.addFlags x).cur.r = s.cur.r := rfl
@[simp] theorem State.addFlags_cur_c (s : State) (x : Flags) : (s.addFlags x).cur.c = s.cur.c := rfl
@[simp] theorem State.addFlags_cur_y (s : State) (x : Flags) : (s.addFlags x).cur.y = { s.cur.y with flg := flgOr s.cur.y.flg x } := rfl
@[simp] theorem State.addFlags_cur_t (s : State) (x : Flags) : (s.addFlags x).cur.t = s.cur.t := rfl
@[simp] theorem State.addFlags_cur_m (s : State) (x : Flags) : (s.addFlags x).cur.m = s.cur.m := rfl
@[simp] theorem State.addFlags_cur_sch (s : State) (x : Flags) : (s.addFlags x).cur.sch = s.cur.sch := rfl
@[simp] theorem State.addFlags_cur_bow (s : State) (x : Flags) : (s.addFlags x).cur.bow = s.cur.bow := rfl
@[simp] theorem State.addFlags_picked (s : State) (x : Flags) : (s.addFlags x).picked = s.picked := rfl
@[simp] theorem State.addFlags_harts (s : State) (x : Flags) : (s.addFlags x).harts = s.harts := rfl
@[simp] theorem State.addFlags_groups (s : State) (x : Flags) : (s.addFlags x).groups = s.groups := rfl
@[simp] theorem State.addFlags_gangs (s : State) (x : Flags) : (s.addFlags x).gangs = s.gangs := rfl
@[simp] theorem State.addFlags_launches (s : State) (x : Flags) : (s.addFlags x).launches = s.launches := rfl
@[simp] theorem State.addFlags_clusters (s : State) (x : Flags) : (s.addFlags x).clusters = s.clusters := rfl
@[simp] theorem State.addFlags_cores (s : State) (x : Flags) : (s.addFlags x).cores = s.cores := rfl
@[simp] theorem State.addFlags_dies (s : State) (x : Flags) : (s.addFlags x).dies = s.dies := rfl
@[simp] theorem State.addFlags_mem (s : State) (x : Flags) : (s.addFlags x).mem = s.mem := rfl
@[simp] theorem State.addFlags_memBad (s : State) (x : Flags) : (s.addFlags x).memBad = s.memBad := rfl
@[simp] theorem State.addFlags_copies (s : State) (x : Flags) : (s.addFlags x).copies = s.copies := rfl
@[simp] theorem State.addFlags_homeVer (s : State) (x : Flags) : (s.addFlags x).homeVer = s.homeVer := rfl
@[simp] theorem State.addFlags_version (s : State) (x : Flags) : (s.addFlags x).version = s.version := rfl
@[simp] theorem State.addFlags_syncs (s : State) (x : Flags) : (s.addFlags x).syncs = s.syncs := rfl
@[simp] theorem State.addFlags_spans (s : State) (x : Flags) : (s.addFlags x).spans = s.spans := rfl
@[simp] theorem State.addFlags_sharers (s : State) (x : Flags) : (s.addFlags x).sharers = s.sharers := rfl
@[simp] theorem State.addFlags_served (s : State) (x : Flags) : (s.addFlags x).served = s.served := rfl
@[simp] theorem State.addFlags_servedAt (s : State) (x : Flags) : (s.addFlags x).servedAt = s.servedAt := rfl
@[simp] theorem State.addFlags_tlb (s : State) (x : Flags) : (s.addFlags x).tlb = s.tlb := rfl
@[simp] theorem State.addFlags_held (s : State) (x : Flags) : (s.addFlags x).held = s.held := rfl
@[simp] theorem State.addFlags_cmds (s : State) (x : Flags) : (s.addFlags x).cmds = s.cmds := rfl
@[simp] theorem State.addFlags_extents (s : State) (x : Flags) : (s.addFlags x).extents = s.extents := rfl
@[simp] theorem State.addFlags_portErrors (s : State) (x : Flags) : (s.addFlags x).portErrors = s.portErrors := rfl
@[simp] theorem State.addFlags_devs (s : State) (x : Flags) : (s.addFlags x).devs = s.devs := rfl
@[simp] theorem State.addFlags_peers (s : State) (x : Flags) : (s.addFlags x).peers = s.peers := rfl
@[simp] theorem State.addFlags_fabric (s : State) (x : Flags) : (s.addFlags x).fabric = s.fabric := rfl
@[simp] theorem State.addFlags_downLinks (s : State) (x : Flags) : (s.addFlags x).downLinks = s.downLinks := rfl
@[simp] theorem State.addFlags_arrivals (s : State) (x : Flags) : (s.addFlags x).arrivals = s.arrivals := rfl
@[simp] theorem State.addFlags_records (s : State) (x : Flags) : (s.addFlags x).records = s.records := rfl
@[simp] theorem State.addFlags_parity (s : State) (x : Flags) : (s.addFlags x).parity = s.parity := rfl
@[simp] theorem State.addFlags_podn (s : State) (x : Flags) : (s.addFlags x).podn = s.podn := rfl
@[simp] theorem State.addFlags_pkg (s : State) (x : Flags) : (s.addFlags x).pkg = s.pkg := rfl
@[simp] theorem State.addFlags_fe (s : State) (x : Flags) : (s.addFlags x).fe = s.fe := rfl
@[simp] theorem State.addFlags_queues (s : State) (x : Flags) : (s.addFlags x).queues = s.queues := rfl
@[simp] theorem State.addFlags_graphs (s : State) (x : Flags) : (s.addFlags x).graphs = s.graphs := rfl
@[simp] theorem State.addFlags_replays (s : State) (x : Flags) : (s.addFlags x).replays = s.replays := rfl
@[simp] theorem State.addFlags_crown (s : State) (x : Flags) : (s.addFlags x).crown = s.crown := rfl
@[simp] theorem State.addFlags_powered (s : State) (x : Flags) : (s.addFlags x).powered = s.powered := rfl
@[simp] theorem State.addFlags_hostMem (s : State) (x : Flags) : (s.addFlags x).hostMem = s.hostMem := rfl
@[simp] theorem State.addFlags_out (s : State) (x : Flags) : (s.addFlags x).out = s.out := rfl
@[simp] theorem State.addFlags_agenda (s : State) (x : Flags) : (s.addFlags x).agenda = s.agenda := rfl
@[simp] theorem State.addFlags_clock (s : State) (x : Flags) : (s.addFlags x).clock = s.clock := rfl
@[simp] theorem State.addFlags_fresh (s : State) (x : Flags) : (s.addFlags x).fresh = s.fresh := rfl
@[simp] theorem State.addFlags_nextId (s : State) (x : Flags) : (s.addFlags x).nextId = s.nextId := rfl

/-! ### The count of an issued instruction -/

@[simp] theorem Hart.counted_id (h : Hart) (n : Nat) : (h.counted n).id = h.id := rfl
@[simp] theorem Hart.counted_role (h : Hart) (n : Nat) : (h.counted n).role = h.role := rfl
@[simp] theorem Hart.counted_live (h : Hart) (n : Nat) : (h.counted n).live = h.live := rfl
@[simp] theorem Hart.counted_pl (h : Hart) (n : Nat) : (h.counted n).pl = h.pl := rfl
@[simp] theorem Hart.counted_r (h : Hart) (n : Nat) : (h.counted n).r = h.r := rfl
@[simp] theorem Hart.counted_y (h : Hart) (n : Nat) : (h.counted n).y = h.y := rfl
@[simp] theorem Hart.counted_m (h : Hart) (n : Nat) : (h.counted n).m = h.m := rfl
@[simp] theorem Hart.counted_bow (h : Hart) (n : Nat) : (h.counted n).bow = h.bow := rfl
@[simp] theorem Hart.counted_c_pc (h : Hart) (n : Nat) : (h.counted n).c.pc = h.c.pc := rfl
@[simp] theorem Hart.counted_c_em (h : Hart) (n : Nat) : (h.counted n).c.em = h.c.em := rfl
@[simp] theorem Hart.counted_c_joins (h : Hart) (n : Nat) : (h.counted n).c.joins = h.c.joins := rfl
@[simp] theorem Hart.counted_c_priv (h : Hart) (n : Nat) : (h.counted n).c.priv = h.c.priv := rfl
@[simp] theorem Hart.counted_c_hold (h : Hart) (n : Nat) : (h.counted n).c.hold = h.c.hold := rfl
@[simp] theorem Hart.counted_c_napEnd (h : Hart) (n : Nat) : (h.counted n).c.napEnd = h.c.napEnd := rfl
@[simp] theorem Hart.counted_c_arrivedBar (h : Hart) (n : Nat) : (h.counted n).c.arrivedBar = h.c.arrivedBar := rfl
@[simp] theorem Hart.counted_c_arrivedGang (h : Hart) (n : Nat) : (h.counted n).c.arrivedGang = h.c.arrivedGang := rfl
@[simp] theorem Hart.counted_c_issued (h : Hart) (n : Nat) : (h.counted n).c.issued = h.c.issued + n := rfl
@[simp] theorem Hart.counted_c_replay (h : Hart) (n : Nat) : (h.counted n).c.replay = none := rfl
@[simp] theorem Hart.counted_c_arriving (h : Hart) (n : Nat) : (h.counted n).c.arriving = false := rfl
@[simp] theorem Hart.counted_c_wait (h : Hart) (n : Nat) : (h.counted n).c.wait = none := rfl
@[simp] theorem Hart.counted_t_tpc (h : Hart) (n : Nat) : (h.counted n).t.tpc = h.t.tpc := by
  unfold Hart.counted; split <;> rfl
@[simp] theorem Hart.counted_t_tstat (h : Hart) (n : Nat) : (h.counted n).t.tstat = h.t.tstat := by
  unfold Hart.counted; split <;> rfl
@[simp] theorem Hart.counted_t_tsfov (h : Hart) (n : Nat) : (h.counted n).t.tsfov = h.t.tsfov := by
  unfold Hart.counted; split <;> rfl
@[simp] theorem Hart.counted_t_tscr (h : Hart) (n : Nat) : (h.counted n).t.tscr = h.t.tscr := by
  unfold Hart.counted; split <;> rfl
@[simp] theorem Hart.counted_t_side (h : Hart) (n : Nat) : (h.counted n).t.side = h.t.side := by
  unfold Hart.counted; split <;> rfl

/-! ### Register files -/

@[simp] theorem Regs.setS_sfull (r : Regs) (n : Nat) (x : Dword) : (r.setS n x).sfull = r.sfull := by
  unfold Regs.setS; split <;> rfl
@[simp] theorem Regs.setS_v (r : Regs) (n : Nat) (x : Dword) : (r.setS n x).v = r.v := by
  unfold Regs.setS; split <;> rfl
@[simp] theorem Regs.setS_p (r : Regs) (n : Nat) (x : Dword) : (r.setS n x).p = r.p := by
  unfold Regs.setS; split <;> rfl
@[simp] theorem Regs.setS_b (r : Regs) (n : Nat) (x : Dword) : (r.setS n x).b = r.b := by
  unfold Regs.setS; split <;> rfl
@[simp] theorem Regs.setP_s (r : Regs) (n : Nat) (x : Word) : (r.setP n x).s = r.s := by
  unfold Regs.setP; split <;> rfl
@[simp] theorem Regs.setP_sfull (r : Regs) (n : Nat) (x : Word) : (r.setP n x).sfull = r.sfull := by
  unfold Regs.setP; split <;> rfl
@[simp] theorem Regs.setP_v (r : Regs) (n : Nat) (x : Word) : (r.setP n x).v = r.v := by
  unfold Regs.setP; split <;> rfl
@[simp] theorem Regs.setP_b (r : Regs) (n : Nat) (x : Word) : (r.setP n x).b = r.b := by
  unfold Regs.setP; split <;> rfl
@[simp] theorem Regs.setP_sbad (r : Regs) (n : Nat) (x : Word) : (r.setP n x).sbad = r.sbad := by
  unfold Regs.setP; split <;> rfl
@[simp] theorem Regs.setB_s (r : Regs) (n : Nat) (x : Bool) : (r.setB n x).s = r.s := rfl
@[simp] theorem Regs.setB_sfull (r : Regs) (n : Nat) (x : Bool) : (r.setB n x).sfull = r.sfull := rfl
@[simp] theorem Regs.setB_v (r : Regs) (n : Nat) (x : Bool) : (r.setB n x).v = r.v := rfl
@[simp] theorem Regs.setB_p (r : Regs) (n : Nat) (x : Bool) : (r.setB n x).p = r.p := rfl
@[simp] theorem Regs.setB_sbad (r : Regs) (n : Nat) (x : Bool) : (r.setB n x).sbad = r.sbad := rfl
@[simp] theorem Regs.setV_s (r : Regs) (n : Nat) (x : VReg) : (r.setV n x).s = r.s := rfl
@[simp] theorem Regs.setV_sfull (r : Regs) (n : Nat) (x : VReg) : (r.setV n x).sfull = r.sfull := rfl
@[simp] theorem Regs.setV_p (r : Regs) (n : Nat) (x : VReg) : (r.setV n x).p = r.p := rfl
@[simp] theorem Regs.setV_b (r : Regs) (n : Nat) (x : VReg) : (r.setV n x).b = r.b := rfl
@[simp] theorem Regs.setV_sbad (r : Regs) (n : Nat) (x : VReg) : (r.setV n x).sbad = r.sbad := rfl
@[simp] theorem Regs.setFullS_s (r : Regs) (n : Nat) (x : Bool) : (r.setFullS n x).s = r.s := by
  unfold Regs.setFullS; split <;> rfl
@[simp] theorem Regs.setFullS_v (r : Regs) (n : Nat) (x : Bool) : (r.setFullS n x).v = r.v := by
  unfold Regs.setFullS; split <;> rfl
@[simp] theorem Regs.setFullS_p (r : Regs) (n : Nat) (x : Bool) : (r.setFullS n x).p = r.p := by
  unfold Regs.setFullS; split <;> rfl
@[simp] theorem Regs.setFullS_b (r : Regs) (n : Nat) (x : Bool) : (r.setFullS n x).b = r.b := by
  unfold Regs.setFullS; split <;> rfl
@[simp] theorem Regs.setFullS_sbad (r : Regs) (n : Nat) (x : Bool) : (r.setFullS n x).sbad = r.sbad := by
  unfold Regs.setFullS; split <;> rfl
@[simp] theorem Regs.setFullV_s (r : Regs) (n : Nat) (x : Bool) : (r.setFullV n x).s = r.s := rfl
@[simp] theorem Regs.setFullV_sfull (r : Regs) (n : Nat) (x : Bool) : (r.setFullV n x).sfull = r.sfull := rfl
@[simp] theorem Regs.setFullV_p (r : Regs) (n : Nat) (x : Bool) : (r.setFullV n x).p = r.p := rfl
@[simp] theorem Regs.setFullV_b (r : Regs) (n : Nat) (x : Bool) : (r.setFullV n x).b = r.b := rfl
@[simp] theorem Regs.setFullV_sbad (r : Regs) (n : Nat) (x : Bool) : (r.setFullV n x).sbad = r.sbad := rfl
@[simp] theorem Regs.writeV_s (r : Regs) (n : Nat) (l : Vector Word 32) (t : BitVec 12) : (r.writeV n l t).s = r.s := rfl
@[simp] theorem Regs.writeV_sfull (r : Regs) (n : Nat) (l : Vector Word 32) (t : BitVec 12) : (r.writeV n l t).sfull = r.sfull := rfl
@[simp] theorem Regs.writeV_p (r : Regs) (n : Nat) (l : Vector Word 32) (t : BitVec 12) : (r.writeV n l t).p = r.p := rfl
@[simp] theorem Regs.writeV_b (r : Regs) (n : Nat) (l : Vector Word 32) (t : BitVec 12) : (r.writeV n l t).b = r.b := rfl
@[simp] theorem Regs.writeV_sbad (r : Regs) (n : Nat) (l : Vector Word 32) (t : BitVec 12) : (r.writeV n l t).sbad = r.sbad := rfl

end Sys2Proof.Machine
end

