-- ==== Sys2Proof/Laws/Mem.lean ====
section
/-!
SUPPORT. The laws of memory, of the maps by number and of vectors by number: what a read gives after a write, and that every
operation on memory keeps the canonical form.
-/

namespace Sys2Proof

theorem NMap.at_put_same {α : Type} (m : NMap α) (k : Nat) (x d : α) : (NMap.put m k x).at k d = x := by
  induction m with
  | nil => simp [NMap.put, NMap.at]
  | cons p rest ih =>
    obtain ⟨j, y⟩ := p
    simp only [NMap.put]
    split
    · simp [NMap.at]
    · split
      · simp [NMap.at]
      · rename_i hne _
        simp [NMap.at, hne, ih]

theorem NMap.at_put_other {α : Type} (m : NMap α) {k j : Nat} (x d : α) (h : j ≠ k) :
    (NMap.put m k x).at j d = m.at j d := by
  induction m with
  | nil => simp [NMap.put, NMap.at, h.symm]
  | cons p rest ih =>
    obtain ⟨i, y⟩ := p
    simp only [NMap.put]
    split
    · rename_i hik; subst hik; simp [NMap.at, h.symm]
    · split
      · simp [NMap.at, h.symm]
      · simp only [NMap.at]; split <;> simp_all

namespace Machine

/-! ### Reads after writes -/

theorem memGet_memSet_same (m : List Host.Cell) (k : Nat) (x : Byte) (h : memWf m = true) : memGet (memSet m k x) k = x := by
  suffices H : ∀ lo, memSorted lo m = true → memGet (memSet m k x) k = x from H 0 h
  clear h
  induction m with
  | nil => intro lo _; simp only [memSet]; split <;> simp_all [memGet]
  | cons p rest ih =>
    obtain ⟨a, b⟩ := p
    intro lo hs
    simp only [memSorted, Bool.and_eq_true, decide_eq_true_eq, bne_iff_ne] at hs
    have below : ∀ (l : List Host.Cell) (lo : Nat), memSorted lo l = true → ∀ j, j < lo → memGet l j = 0 := by
      intro l
      induction l with
      | nil => intro _ _ _ _; rfl
      | cons q l ihl =>
        obtain ⟨c, e⟩ := q
        intro lo hl j hj
        simp only [memSorted, Bool.and_eq_true, decide_eq_true_eq, bne_iff_ne] at hl
        have hc : c ≠ j := by omega
        simp only [memGet, hc, if_false]
        exact ihl (c + 1) hl.2 j (by omega)
    simp only [memSet]
    split
    · rename_i hak
      subst hak
      split
      · rename_i hx; rw [hx]; exact below rest (a + 1) hs.2 a (by omega)
      · simp [memGet]
    · rename_i hak
      split
      · rename_i hlt
        split
        · rename_i hx; simp only [memGet, hak, if_false]; rw [hx]; exact below rest (a + 1) hs.2 k (by omega)
        · simp [memGet]
      · simp only [memGet, hak, if_false]
        exact ih (a + 1) hs.2

theorem memGet_memSet_other (m : List Host.Cell) {k j : Nat} (x : Byte) (h : j ≠ k) : memGet (memSet m k x) j = memGet m j := by
  induction m with
  | nil => simp only [memSet]; split <;> simp [memGet, h.symm]
  | cons p rest ih =>
    obtain ⟨a, b⟩ := p
    simp only [memSet]
    split
    · rename_i hak
      subst hak
      split <;> simp [memGet, h.symm]
    · split
      · split <;> simp [memGet, h.symm]
      · simp only [memGet]; split <;> simp_all

theorem memGet_memWrite_outside (bs : List Byte) (m : List Host.Cell) (k j : Nat) (h : j < k ∨ k + bs.length ≤ j) :
    memGet (memWrite m k bs) j = memGet m j := by
  induction bs generalizing m k with
  | nil => rfl
  | cons b bs ih =>
    simp only [List.length_cons] at h
    simp only [memWrite]
    rw [ih (memSet m k b) (k + 1) (by omega), memGet_memSet_other m b (by omega)]

/-! ### The canonical form -/

theorem memSorted_weaken (m : List Host.Cell) {lo lo' : Nat} (h : memSorted lo m = true) (hl : lo' ≤ lo) :
    memSorted lo' m = true := by
  cases m with
  | nil => rfl
  | cons p rest =>
    obtain ⟨a, b⟩ := p
    simp only [memSorted, Bool.and_eq_true, decide_eq_true_eq] at h ⊢
    exact ⟨⟨by omega, h.1.2⟩, h.2⟩

theorem memSorted_memSet (m : List Host.Cell) (k : Nat) (x : Byte) {lo : Nat} (h : memSorted lo m = true) (hk : lo ≤ k) :
    memSorted lo (memSet m k x) = true := by
  induction m generalizing lo with
  | nil => simp only [memSet]; split <;> simp_all [memSorted]
  | cons p rest ih =>
    obtain ⟨a, b⟩ := p
    have h' := h
    simp only [memSorted, Bool.and_eq_true, decide_eq_true_eq, bne_iff_ne] at h'
    simp only [memSet]
    split
    · rename_i hak
      split
      · exact memSorted_weaken rest h'.2 (by omega)
      · rename_i hx
        subst hak
        simp only [memSorted, Bool.and_eq_true, decide_eq_true_eq, bne_iff_ne]
        exact ⟨⟨hk, hx⟩, h'.2⟩
    · split
      · rename_i hlt
        split
        · exact h
        · rename_i hx
          simp only [memSorted, Bool.and_eq_true, decide_eq_true_eq, bne_iff_ne]
          exact ⟨⟨hk, hx⟩, ⟨by omega, h'.1.2⟩, h'.2⟩
      · simp only [memSorted, Bool.and_eq_true, decide_eq_true_eq, bne_iff_ne]
        exact ⟨h'.1, ih h'.2 (by omega)⟩

theorem memWf_memSet (m : List Host.Cell) (k : Nat) (x : Byte) (h : memWf m = true) : memWf (memSet m k x) = true :=
  memSorted_memSet m k x h (Nat.zero_le k)

theorem memWf_memWrite (bs : List Byte) (m : List Host.Cell) (k : Nat) (h : memWf m = true) :
    memWf (memWrite m k bs) = true := by
  induction bs generalizing m k with
  | nil => exact h
  | cons b bs ih => exact ih (memSet m k b) (k + 1) (memWf_memSet m k b h)

theorem memWf_memPutWord (m : List Host.Cell) (k : Nat) (x : Word) (h : memWf m = true) :
    memWf (memPutWord m k x) = true := memWf_memWrite _ m k h

theorem memSorted_filter (keep : Host.Cell → Bool) (m : List Host.Cell) {lo : Nat} (h : memSorted lo m = true) :
    memSorted lo (m.filter keep) = true := by
  induction m generalizing lo with
  | nil => rfl
  | cons p rest ih =>
    obtain ⟨a, b⟩ := p
    have h' := h
    simp only [memSorted, Bool.and_eq_true, decide_eq_true_eq, bne_iff_ne] at h'
    simp only [List.filter_cons]
    split
    · simp only [memSorted, Bool.and_eq_true, decide_eq_true_eq, bne_iff_ne]
      exact ⟨h'.1, ih h'.2⟩
    · exact memSorted_weaken _ (ih h'.2) (by omega)

/-- A die loss and a warm start keep some bytes and drop the others. -/
theorem memWf_filter (keep : Host.Cell → Bool) (m : List Host.Cell) (h : memWf m = true) : memWf (m.filter keep) = true :=
  memSorted_filter keep m h

theorem Group.scratchPut_wf (g : Group) (off : Nat) (bs : List Byte) (h : memWf g.scratch = true) :
    memWf (g.scratchPut off bs).scratch = true := memWf_memWrite bs g.scratch off h

@[simp] theorem State.request_mem (s : State) (peer : Nat) (what : FabWhat) (who : FabBy) : (s.request peer what who).mem = s.mem := by
  unfold State.request; split <;> rfl

@[simp] theorem State.nextDelta_mem (s : State) (home holder off : Nat) (x : Word) : (s.nextDelta home holder off x).2.mem = s.mem := rfl

@[simp] theorem State.sendDelta_mem (s : State) (off : Nat) (xor new : Word) (spoils : Bool) :
    (s.sendDelta off xor new spoils).mem = s.mem := by
  unfold State.sendDelta; split
  · rfl
  · simp only []; split
    · rfl
    · simp

@[simp] theorem State.peerDelta_mem (s : State) (pw : PWord) (x : Word) : (s.peerDelta pw x).mem = s.mem := by
  unfold State.peerDelta
  simp only []
  split
  · split <;> rfl
  · rfl

/-- The home's own data written: the word's bytes and no other byte of memory. -/
theorem State.homePut_mem (s : State) (pw : PWord) (x : Word) (bad : Bool) :
    (s.homePut pw x bad).mem = memPutWord s.mem (pwKey pw) x := by
  unfold State.homePut
  simp only []
  split
  · simp
  · split <;> simp

theorem State.homePut_wf (s : State) (pw : PWord) (x : Word) (bad : Bool) (h : memWf s.mem = true) :
    memWf (s.homePut pw x bad).mem = true := by
  rw [State.homePut_mem]; exact memWf_memPutWord _ _ _ h

/-- The memories of the machine right after reset. -/
theorem State.reset_mem : memWf State.reset.mem = true ∧ memWf State.reset.hostMem = true := ⟨rfl, rfl⟩

/-! ### Vectors by number -/

theorem vget_vset_same {α : Type} {n : Nat} (v : Vector α n) {i : Nat} (x d : α) (h : i < n) :
    vget (vset v i x) i d = x := by simp [vget, vset, h]

theorem vget_vset_other {α : Type} {n : Nat} (v : Vector α n) {i j : Nat} (x d : α) (h : j ≠ i) :
    vget (vset v i x) j d = vget v j d := by
  unfold vget vset
  split
  · split
    · rw [Vector.getElem_set_ne _ _ h.symm]
    · rfl
  · rfl

/-! ### Registers -/

theorem Regs.getS_setS_same (r : Regs) {n : Nat} (x : Dword) (h0 : n ≠ 0) (h : n < 128) : (r.setS n x).getS n = x := by
  simp [Regs.getS, Regs.setS, h0, vget_vset_same, h]

/-- S0 reads zero whatever was written to it (R10). -/
theorem Regs.getS_zero (r : Regs) : r.getS 0 = 0 := rfl

theorem Regs.getS_setS_other (r : Regs) {n m : Nat} (x : Dword) (h : m ≠ n) : (r.setS n x).getS m = r.getS m := by
  unfold Regs.getS Regs.setS
  split
  · rfl
  · split
    · rfl
    · exact vget_vset_other _ _ _ h

theorem Regs.getP_setP_same (r : Regs) {n : Nat} (x : Word) (h0 : n ≠ 0) (h : n < 16) : (r.setP n x).getP n = x := by
  simp [Regs.getP, Regs.setP, h0, vget_vset_same, h]

theorem Regs.getP_setP_other (r : Regs) {n m : Nat} (x : Word) (h : m ≠ n) : (r.setP n x).getP m = r.getP m := by
  unfold Regs.getP Regs.setP
  split
  · rfl
  · split
    · rfl
    · exact vget_vset_other _ _ _ h

theorem Regs.getB_setB_same (r : Regs) {n : Nat} (x : Bool) (h : n < 8) : (r.setB n x).getB n = x :=
  vget_vset_same _ _ _ h

theorem Regs.getB_setB_other (r : Regs) {n m : Nat} (x : Bool) (h : m ≠ n) : (r.setB n x).getB m = r.getB m :=
  vget_vset_other _ _ _ h

theorem Regs.getV_setV_same (r : Regs) {n : Nat} (x : VReg) (h : n < 1024) : (r.setV n x).getV n = x :=
  vget_vset_same _ _ _ h

theorem Regs.getV_setV_other (r : Regs) {n m : Nat} (x : VReg) (h : m ≠ n) : (r.setV n x).getV m = r.getV m :=
  vget_vset_other _ _ _ h

@[simp] theorem Regs.getS_setP (r : Regs) (n m : Nat) (x : Word) : (r.setP n x).getS m = r.getS m := by
  simp [Regs.getS]
@[simp] theorem Regs.getS_setB (r : Regs) (n m : Nat) (x : Bool) : (r.setB n x).getS m = r.getS m := rfl
@[simp] theorem Regs.getS_setV (r : Regs) (n m : Nat) (x : VReg) : (r.setV n x).getS m = r.getS m := rfl
@[simp] theorem Regs.getP_setS (r : Regs) (n m : Nat) (x : Dword) : (r.setS n x).getP m = r.getP m := by
  simp [Regs.getP]
@[simp] theorem Regs.getP_setB (r : Regs) (n m : Nat) (x : Bool) : (r.setB n x).getP m = r.getP m := rfl
@[simp] theorem Regs.getP_setV (r : Regs) (n m : Nat) (x : VReg) : (r.setV n x).getP m = r.getP m := rfl
@[simp] theorem Regs.getB_setS (r : Regs) (n m : Nat) (x : Dword) : (r.setS n x).getB m = r.getB m := by
  simp [Regs.getB]
@[simp] theorem Regs.getB_setP (r : Regs) (n m : Nat) (x : Word) : (r.setP n x).getB m = r.getB m := by
  simp [Regs.getB]
@[simp] theorem Regs.getB_setV (r : Regs) (n m : Nat) (x : VReg) : (r.setV n x).getB m = r.getB m := rfl
@[simp] theorem Regs.getV_setS (r : Regs) (n m : Nat) (x : Dword) : (r.setS n x).getV m = r.getV m := by
  simp [Regs.getV]
@[simp] theorem Regs.getV_setP (r : Regs) (n m : Nat) (x : Word) : (r.setP n x).getV m = r.getV m := by
  simp [Regs.getV]
@[simp] theorem Regs.getV_setB (r : Regs) (n m : Nat) (x : Bool) : (r.setB n x).getV m = r.getV m := rfl

end Machine

end Sys2Proof
end

