-- ==== Sys2Proof/Laws/Issue.lean ====
section
/-!
SUPPORT. What the shared operations of an instruction can do, said once: the checks at issue, retirement, a transfer, a result
written, a vector result taken, a load or store begun.
-/

namespace Sys2Proof.Machine

/-! ### The checks at issue -/

/-- An instruction that passes the checks has its effect. -/
theorem issue_of_issues {i : Instr} {g : Guard} {s : State} (k : State → Out) (h : Issues i g s) : issue i g s k = k s := by
  obtain ⟨h1, h2, h3, h4, h5, h6⟩ := h
  have h3 := beq_eq_false_iff_ne.mpr h3
  simp only [issue, issueWith, h1, h2, h3, h4, h5, h6]
  rfl

/-- JOIN's checks (R301): the mask does not matter. -/
theorem issueWith_always {i : Instr} {g : Guard} {s : State} (k : State → Out) (h1 : illegal i s = none)
    (h2 : loadWait i s.cur = false) (h4 : emptyTrap (uses i) s.cur.r = false) (h5 : emptyWait (uses i) s.cur.r = false)
    (h6 : sourceTrap (uses i) s = none) : issueWith true i g s k = k s := by
  simp [issueWith, h1, h2, h4, h5, h6]

/-- All that the checks can do. -/
theorem issue_cases (i : Instr) (g : Guard) (s : State) (k : State → Out) :
    (∃ r, illegal i s = some r ∧ issue i g s k = trapSettled { cls := 0, reason := r } (classFn i).1 (classFn i).2 s)
    ∨ (illegal i s = none ∧ loadWait i s.cur = true ∧ issue i g s k = stall s)
    ∨ (illegal i s = none ∧ loadWait i s.cur = false ∧ laneMask s.cur g = 0 ∧ issue i g s k = retire s)
    ∨ (illegal i s = none ∧ loadWait i s.cur = false ∧ laneMask s.cur g ≠ 0 ∧ emptyTrap (uses i) s.cur.r = true
        ∧ issue i g s k = trapSettled { cls := 2 } (classFn i).1 (classFn i).2 s)
    ∨ (illegal i s = none ∧ loadWait i s.cur = false ∧ laneMask s.cur g ≠ 0 ∧ emptyTrap (uses i) s.cur.r = false
        ∧ emptyWait (uses i) s.cur.r = true ∧ issue i g s k = stall s)
    ∨ (illegal i s = none ∧ loadWait i s.cur = false ∧ laneMask s.cur g ≠ 0 ∧ emptyTrap (uses i) s.cur.r = false
        ∧ emptyWait (uses i) s.cur.r = false
        ∧ ∃ c, sourceTrap (uses i) s = some c ∧ issue i g s k = trapSettled c (classFn i).1 (classFn i).2 s)
    ∨ (Issues i g s ∧ issue i g s k = k s) := by
  cases h1 : illegal i s with
  | some r => exact .inl ⟨r, rfl, by simp [issue, issueWith, h1]⟩
  | none =>
    right
    cases h2 : loadWait i s.cur with
    | true => exact .inl ⟨rfl, rfl, by simp [issue, issueWith, h1, h2]⟩
    | false =>
      right
      by_cases h3 : laneMask s.cur g = 0
      · exact .inl ⟨rfl, rfl, h3, by simp [issue, issueWith, h1, h2, h3]⟩
      · right
        have h3' := beq_eq_false_iff_ne.mpr h3
        cases h4 : emptyTrap (uses i) s.cur.r with
        | true => exact .inl ⟨rfl, rfl, h3, rfl, by simp only [issue, issueWith, h1, h2, h3', h4]; rfl⟩
        | false =>
          right
          cases h5 : emptyWait (uses i) s.cur.r with
          | true => exact .inl ⟨rfl, rfl, h3, rfl, rfl, by simp only [issue, issueWith, h1, h2, h3', h4, h5]; rfl⟩
          | false =>
            right
            cases h6 : sourceTrap (uses i) s with
            | some c => exact .inl ⟨rfl, rfl, h3, rfl, rfl, c, rfl, by simp only [issue, issueWith, h1, h2, h3', h4, h5, h6]; rfl⟩
            | none => exact .inr ⟨⟨h1, h2, h3, h4, h5, h6⟩, issue_of_issues k ⟨h1, h2, h3, h4, h5, h6⟩⟩

/-- An illegal instruction of a stream whose older loads are confirmed traps with class 0 (R58). -/
theorem issue_illegal {i : Instr} {g : Guard} {s : State} (k : State → Out) {r : Nat} (h : illegal i s = some r)
    (hs : settled s.cur = true) :
    issue i g s k = .next (s.takeTrap { cls := 0, reason := r } (classFn i).1 (classFn i).2) := by
  simp [issue, issueWith, h, trapSettled, hs, trapOut]

/-! ### The ends of an instruction -/

theorem retire_eq (s : State) : ∃ t, retire s = .next t ∧ Stepped s t ∧ OthersKept s t ∧ HartKept s.cur t.cur ∧ t.cur.r = s.cur.r
    ∧ t.cur.c.napEnd = s.cur.c.napEnd := by
  refine ⟨_, rfl, ⟨rfl, rfl, rfl, rfl, rfl, rfl⟩, rfl, ?_, rfl, rfl⟩
  refine ⟨rfl, rfl, rfl, rfl, rfl, rfl, rfl, ?_, ?_, ?_, ?_, ?_, rfl, rfl, rfl⟩ <;> simp [Hart.counted] <;> split <;> rfl

theorem transfer_eq (p : Dword) (s : State) : ∃ t, transfer p s = .next t ∧ t.cur.c.pc = p ∧ t.cur.c.arriving = true
    ∧ t.cur.c.issued = s.cur.c.issued + 1 ∧ OthersKept s t ∧ HartKept s.cur t.cur ∧ t.cur.r = s.cur.r := by
  refine ⟨_, rfl, rfl, rfl, rfl, rfl, ?_, rfl⟩
  refine ⟨rfl, rfl, rfl, rfl, rfl, rfl, rfl, ?_, ?_, ?_, ?_, ?_, rfl, rfl, rfl⟩ <;> simp [Hart.counted] <;> split <;> rfl

theorem stall_eq (s : State) : stall s = .next { s with picked := false } := rfl

/-- A scalar result written: what `writeS` leaves in every register. -/
theorem writeS_eq (d : BitVec 7) (x : Dword) (s : State) :
    writeS d x s = retire (s.mapRegs (fun r => r.setS d.toNat x)) := rfl

theorem setS_kept (r : Regs) (n : Nat) (x : Dword) : RegsKept [n] [] [] [] r (r.setS n x) :=
  ⟨fun m h => Regs.getS_setS_other r x (by simpa using h), fun m _ => by simp, fun m _ => by simp, fun m _ => by simp⟩

theorem setB_kept (r : Regs) (n : Nat) (x : Bool) : RegsKept [] [] [] [n] r (r.setB n x) :=
  ⟨fun m _ => by simp, fun m _ => by simp [Regs.getV], fun m _ => by simp, fun m h => Regs.getB_setB_other r x (by simpa using h)⟩

theorem setP_kept (r : Regs) (n : Nat) (x : Word) : RegsKept [] [] [n] [] r (r.setP n x) :=
  ⟨fun m _ => by simp, fun m _ => by simp, fun m h => Regs.getP_setP_other r x (by simpa using h), fun m _ => by simp⟩

theorem writeV_kept (r : Regs) (n : Nat) (l : Vector Word 32) (t : BitVec 12) : RegsKept [] [n] [] [] r (r.writeV n l t) :=
  ⟨fun m _ => rfl, fun m h => Regs.getV_setV_other r _ (by simpa using h), fun m _ => rfl, fun m _ => rfl⟩

/-- A vector result writes its vector register, its predicate, and nothing else. -/
theorem VRes.write_kept (x : VRes) (r : Regs) :
    RegsKept [] ((x.vd.map (fun v => v.1)).toList) ((x.pd.map (fun p => p.1)).toList) [] r (x.write r) := by
  unfold VRes.write
  cases hv : x.vd with
  | none =>
    cases hp : x.pd with
    | none => exact ⟨fun _ _ => rfl, fun _ _ => rfl, fun _ _ => rfl, fun _ _ => rfl⟩
    | some p => simpa using setP_kept r p.1 p.2
  | some v =>
    obtain ⟨n, l, t⟩ := v
    have hw := writeV_kept r n l t
    cases hp : x.pd with
    | none => simpa using hw
    | some p =>
      have hq := setP_kept (r.writeV n l t) p.1 p.2
      exact ⟨fun m h => (hq.1 m (by simp)).trans (hw.1 m (by simp)),
        fun m h => (hq.2.1 m (by simp)).trans (hw.2.1 m (by simpa using h)),
        fun m h => (hq.2.2.1 m (by simpa using h)).trans (hw.2.2.1 m (by simp)),
        fun m h => (hq.2.2.2 m (by simp)).trans (hw.2.2.2 m (by simp))⟩

/-- All that the end of a vector instruction can do (R92, R93). -/
theorem finishV_cases (i : Instr) (x : VRes) (s : State) :
    (∃ c, x.trap = some c ∧ finishV i x s = trapAt i c s)
    ∨ (x.trap = none ∧ flgTraps s.cur.y.flg x.flags = true
        ∧ finishV i x s = trapAt i (arithCause x.flags) (s.addFlags x.flags))
    ∨ (x.trap = none ∧ flgTraps s.cur.y.flg x.flags = false
        ∧ finishV i x s = retire ((s.mapRegs x.write).addFlags x.flags)) := by
  cases h : x.trap with
  | some c => exact .inl ⟨c, rfl, by simp [finishV, h]⟩
  | none =>
    right
    cases hf : flgTraps s.cur.y.flg x.flags with
    | true => exact .inl ⟨rfl, rfl, by simp [finishV, h, hf]⟩
    | false => exact .inr ⟨rfl, rfl, by simp [finishV, h, hf]⟩

/-- A vector instruction that passes the checks and whose flags do not trap. -/
theorem vecExec_of_issues {i : Instr} {g : Guard} {k : Hart → VRes} {s : State} (h : Issues i g s)
    (ht : (k s.cur).trap = none) (hf : flgTraps s.cur.y.flg (k s.cur).flags = false) :
    vecExec i g k s = retire ((s.mapRegs (k s.cur).write).addFlags (k s.cur).flags) := by
  simp [vecExec, issue_of_issues _ h, finishV, ht, hf]

/-- A load of a warp, VGLD apart, that passes the core's checks and finds room for its requests retires with its access
pending. -/
theorem startLoad_warp {i : Instr} {faults : List (Dword × Option Nat)} {m : Word} {es : List Elem} {sp : Dword} {s : State}
    (h : coreCause faults = none) (hr : s.cur.role = .warp) (hg : ∀ f, i ≠ .vgld f)
    (hm : s.requestRoom (framesOf (es.map (fun e => (e.ea, e.bytes)))) = true) :
    ∃ t, startLoad i faults m es sp s = .next t ∧ Stepped s t
      ∧ t.cur.m.returning = s.cur.m.returning ++ [
          { i := i, pc := s.cur.c.pc, mask := m, elems := es, got := [], confirmed := false, trap := none,
            sptr := s.cur.y.sptr, counted := none, sibs := s.siblings }]
      ∧ t.cur.y.sptr = sp ∧ t.cur.r = s.cur.r.mark (uses i) false ∧ OthersKept s t := by
  suffices e : ∀ r : Ret, r =
      { i := i, pc := s.cur.c.pc, mask := m, elems := es, got := [], confirmed := false, trap := none,
        sptr := s.cur.y.sptr, counted := none } →
      startLoad i faults m es sp s
        = retire { (s.startRet i r) with cur := { (s.startRet i r).cur with y := { s.cur.y with sptr := sp } } } by
    rw [e _ rfl]
    refine ⟨_, rfl, ⟨rfl, rfl, rfl, rfl, rfl, rfl⟩, rfl, rfl, ?_, rfl⟩
    show (if s.cur.role == .warp then _ else _) = _
    simp [hr]
  rintro r rfl
  unfold startLoad
  rw [h]
  cases i <;> first | exact absurd rfl (hg _) | (simp [hr, hm]; rfl)

/-- A store of a warp without release ordering, VSCT apart, that passes the core's checks and finds room for its requests retires
with the store pending. -/
theorem startStore_warp {i : Instr} {faults : List (Dword × Option Nat)} {o : Order} {sc : Scope} {es : List StElem} {s : State}
    (h : coreCause faults = none) (hr : s.cur.role = .warp) (ho : isRel o = false) (hg : ∀ f, i ≠ .vsct f)
    (hm : s.requestRoom (framesOf (es.map (fun e => (e.ea, e.data.length)))) = true) :
    startStore i faults o sc es s = retire (s.queueStore (s.newStore i sc es)) := by
  unfold startStore
  rw [h]
  cases i <;> first | exact absurd rfl (hg _) | simp [hr, ho, hm, State.countStore, State.newStore]

/-- Taking a trap always answers a next state. -/
theorem trapOut_next (c : Cause) (icls fn : Nat) (s : State) (o : Nat) : ∃ t, trapOut c icls fn s o = .next t := ⟨_, rfl⟩

/-- The checks at issue answer a next state whenever the effect does. -/
theorem issue_next (i : Instr) (g : Guard) (s : State) (k : State → Out) (h : ∃ t, k s = .next t) :
    ∃ t, issue i g s k = .next t := by
  rcases issue_cases i g s k with ⟨r, _, e⟩ | ⟨_, _, e⟩ | ⟨_, _, _, e⟩ | ⟨_, _, _, _, e⟩ | ⟨_, _, _, _, _, e⟩ |
    ⟨_, _, _, _, _, c, _, e⟩ | ⟨_, e⟩ <;> rw [e]
  · unfold trapSettled; split <;> exact ⟨_, rfl⟩
  · exact ⟨_, rfl⟩
  · exact ⟨_, rfl⟩
  · unfold trapSettled; split <;> exact ⟨_, rfl⟩
  · exact ⟨_, rfl⟩
  · unfold trapSettled; split <;> exact ⟨_, rfl⟩
  · exact h

end Sys2Proof.Machine
end

