-- ==== Sys2Proof/Laws/PerInstr.lean ====
section
/-!
SUPPORT. Statements made for every instruction, one lemma per constructor. OpcodeListed: the word of an instruction is NOP's, or
its function code stands in the opcode map (R56).
-/

namespace Sys2Proof.Laws

/-- The function code of the word stands in the opcode map, or the word is NOP's (R36, R56). -/
def OpcodeListed.Statement (i : Instr) : Prop :=
  ∀ w, encode i = some w → w = 0 ∨ (findRow (w.extractLsb' 86 10).toNat opTable).isSome = true

theorem listed_encV3 (c : BitVec 10) (f : V3) (h : (findRow c.toNat opTable).isSome = true) (w : BitVec 96)
    (e : some (encV3 c f) = some w) : w = 0 ∨ (findRow (w.extractLsb' 86 10).toNat opTable).isSome = true := by
  cases e; right; rw [code_encV3]; exact h

theorem listed_encV2I (c : BitVec 10) (f : V2I) (h : (findRow c.toNat opTable).isSome = true) (w : BitVec 96)
    (e : some (encV2I c f) = some w) : w = 0 ∨ (findRow (w.extractLsb' 86 10).toNat opTable).isSome = true := by
  cases e; right; rw [code_encV2I]; exact h

theorem listed_encS3 (c : BitVec 10) (f : S3) (h : (findRow c.toNat opTable).isSome = true) (w : BitVec 96)
    (e : some (encS3 c f) = some w) : w = 0 ∨ (findRow (w.extractLsb' 86 10).toNat opTable).isSome = true := by
  cases e; right; rw [code_encS3]; exact h

theorem listed_encSI (c : BitVec 10) (f : SI) (h : (findRow c.toNat opTable).isSome = true) (w : BitVec 96)
    (e : some (encSI c f) = some w) : w = 0 ∨ (findRow (w.extractLsb' 86 10).toNat opTable).isSome = true := by
  cases e; right; rw [code_encSI]; exact h

theorem listed_encFM (c : BitVec 10) (f : FM) (h : (findRow c.toNat opTable).isSome = true) (w : BitVec 96)
    (e : some (encFM c f) = some w) : w = 0 ∨ (findRow (w.extractLsb' 86 10).toNat opTable).isSome = true := by
  cases e; right; rw [code_encFM]; exact h

theorem listed_encFB (c : BitVec 10) (f : FB) (h : (findRow c.toNat opTable).isSome = true) (w : BitVec 96)
    (e : some (encFB c f) = some w) : w = 0 ∨ (findRow (w.extractLsb' 86 10).toNat opTable).isSome = true := by
  cases e; right; rw [code_encFB]; exact h

theorem listed_encFX (c : BitVec 10) (f : FX) (h : (findRow c.toNat opTable).isSome = true) (w : BitVec 96)
    (e : some (encFX c f) = some w) : w = 0 ∨ (findRow (w.extractLsb' 86 10).toNat opTable).isSome = true := by
  cases e; right; rw [code_encFX]; exact h

theorem listed_encFA (c : BitVec 10) (f : FA) (h : (findRow c.toNat opTable).isSome = true) (w : BitVec 96)
    (e : some (encFA c f) = some w) : w = 0 ∨ (findRow (w.extractLsb' 86 10).toNat opTable).isSome = true := by
  cases e; right; rw [code_encFA]; exact h

theorem listed_encFMX (c : BitVec 10) (f : FMX) (h : (findRow c.toNat opTable).isSome = true) (w : BitVec 96)
    (e : some (encFMX c f) = some w) : w = 0 ∨ (findRow (w.extractLsb' 86 10).toNat opTable).isSome = true := by
  cases e; right; rw [code_encFMX]; exact h

theorem OpcodeListed.nop : OpcodeListed.Statement .nop := fun w h => by cases h; exact .inl rfl
theorem OpcodeListed.smov (f) : OpcodeListed.Statement (.smov f) := fun w e => listed_encS3 _ f (by decide) w e
theorem OpcodeListed.smovi (f) : OpcodeListed.Statement (.smovi f) := fun w e => listed_encSI _ f (by decide) w e
theorem OpcodeListed.smoviHi (f) : OpcodeListed.Statement (.smoviHi f) := fun w e => listed_encSI _ f (by decide) w e
theorem OpcodeListed.sadd (f) : OpcodeListed.Statement (.sadd f) := fun w e => listed_encS3 _ f (by decide) w e
theorem OpcodeListed.saddi (f) : OpcodeListed.Statement (.saddi f) := fun w e => listed_encSI _ f (by decide) w e
theorem OpcodeListed.ssub (f) : OpcodeListed.Statement (.ssub f) := fun w e => listed_encS3 _ f (by decide) w e
theorem OpcodeListed.smul (f) : OpcodeListed.Statement (.smul f) := fun w e => listed_encS3 _ f (by decide) w e
theorem OpcodeListed.smulh (f) : OpcodeListed.Statement (.smulh f) := fun w e => listed_encS3 _ f (by decide) w e
theorem OpcodeListed.smulhn (f) : OpcodeListed.Statement (.smulhn f) := fun w e => listed_encS3 _ f (by decide) w e
theorem OpcodeListed.sdiv (f) : OpcodeListed.Statement (.sdiv f) := fun w e => listed_encS3 _ f (by decide) w e
theorem OpcodeListed.sdivn (f) : OpcodeListed.Statement (.sdivn f) := fun w e => listed_encS3 _ f (by decide) w e
theorem OpcodeListed.srem (f) : OpcodeListed.Statement (.srem f) := fun w e => listed_encS3 _ f (by decide) w e
theorem OpcodeListed.sand (f) : OpcodeListed.Statement (.sand f) := fun w e => listed_encS3 _ f (by decide) w e
theorem OpcodeListed.sor (f) : OpcodeListed.Statement (.sor f) := fun w e => listed_encS3 _ f (by decide) w e
theorem OpcodeListed.sxor (f) : OpcodeListed.Statement (.sxor f) := fun w e => listed_encS3 _ f (by decide) w e
theorem OpcodeListed.sandn (f) : OpcodeListed.Statement (.sandn f) := fun w e => listed_encS3 _ f (by decide) w e
theorem OpcodeListed.sshl (f) : OpcodeListed.Statement (.sshl f) := fun w e => listed_encS3 _ f (by decide) w e
theorem OpcodeListed.sshr (f) : OpcodeListed.Statement (.sshr f) := fun w e => listed_encS3 _ f (by decide) w e
theorem OpcodeListed.ssra (f) : OpcodeListed.Statement (.ssra f) := fun w e => listed_encS3 _ f (by decide) w e
theorem OpcodeListed.srot (f) : OpcodeListed.Statement (.srot f) := fun w e => listed_encS3 _ f (by decide) w e
theorem OpcodeListed.smin (f) : OpcodeListed.Statement (.smin f) := fun w e => listed_encS3 _ f (by decide) w e
theorem OpcodeListed.smax (f) : OpcodeListed.Statement (.smax f) := fun w e => listed_encS3 _ f (by decide) w e
theorem OpcodeListed.sminn (f) : OpcodeListed.Statement (.sminn f) := fun w e => listed_encS3 _ f (by decide) w e
theorem OpcodeListed.smaxn (f) : OpcodeListed.Statement (.smaxn f) := fun w e => listed_encS3 _ f (by decide) w e
theorem OpcodeListed.scmp (f) : OpcodeListed.Statement (.scmp f) := fun w e => listed_encS3 _ f (by decide) w e
theorem OpcodeListed.ssel (f) : OpcodeListed.Statement (.ssel f) := fun w e => listed_encS3 _ f (by decide) w e
theorem OpcodeListed.sclz (f) : OpcodeListed.Statement (.sclz f) := fun w e => listed_encS3 _ f (by decide) w e
theorem OpcodeListed.spopc (f) : OpcodeListed.Statement (.spopc f) := fun w e => listed_encS3 _ f (by decide) w e
theorem OpcodeListed.sbfx (f) : OpcodeListed.Statement (.sbfx f) := fun w e => listed_encSI _ f (by decide) w e
theorem OpcodeListed.sbfi (f) : OpcodeListed.Statement (.sbfi f) := fun w e => listed_encSI _ f (by decide) w e
theorem OpcodeListed.slea (f) : OpcodeListed.Statement (.slea f) := fun w e => listed_encS3 _ f (by decide) w e
theorem OpcodeListed.swid (f) : OpcodeListed.Statement (.swid f) := fun w e => listed_encS3 _ f (by decide) w e
theorem OpcodeListed.srr (f) : OpcodeListed.Statement (.srr f) := fun w e => listed_encSI _ f (by decide) w e
theorem OpcodeListed.srw (f) : OpcodeListed.Statement (.srw f) := fun w e => listed_encSI _ f (by decide) w e
theorem OpcodeListed.sbool (f) : OpcodeListed.Statement (.sbool f) := fun w e => listed_encS3 _ f (by decide) w e
theorem OpcodeListed.br (f) : OpcodeListed.Statement (.br f) := fun w e => listed_encFB _ f (by decide) w e
theorem OpcodeListed.brc (f) : OpcodeListed.Statement (.brc f) := fun w e => listed_encFB _ f (by decide) w e
theorem OpcodeListed.bri (f) : OpcodeListed.Statement (.bri f) := fun w e => listed_encFB _ f (by decide) w e
theorem OpcodeListed.call (f) : OpcodeListed.Statement (.call f) := fun w e => listed_encFB _ f (by decide) w e
theorem OpcodeListed.ret (f) : OpcodeListed.Statement (.ret f) := fun w e => listed_encFB _ f (by decide) w e
theorem OpcodeListed.loop (f) : OpcodeListed.Statement (.loop f) := fun w e => listed_encFB _ f (by decide) w e
theorem OpcodeListed.exit (f) : OpcodeListed.Statement (.exit f) := fun w e => listed_encFX _ f (by decide) w e
theorem OpcodeListed.msetEm (f) : OpcodeListed.Statement (.msetEm f) := fun w e => listed_encFX _ f (by decide) w e
theorem OpcodeListed.msetParked (f) : OpcodeListed.Statement (.msetParked f) := fun w e => listed_encFX _ f (by decide) w e
theorem OpcodeListed.park (f) : OpcodeListed.Statement (.park f) := fun w e => listed_encFB _ f (by decide) w e
theorem OpcodeListed.join (f) : OpcodeListed.Statement (.join f) := fun w e => listed_encFX _ f (by decide) w e
theorem OpcodeListed.lexit (f) : OpcodeListed.Statement (.lexit f) := fun w e => listed_encFX _ f (by decide) w e
theorem OpcodeListed.brany (f) : OpcodeListed.Statement (.brany f) := fun w e => listed_encFB _ f (by decide) w e
theorem OpcodeListed.brall (f) : OpcodeListed.Statement (.brall f) := fun w e => listed_encFB _ f (by decide) w e
theorem OpcodeListed.bar (f) : OpcodeListed.Statement (.bar f) := fun w e => listed_encFX _ f (by decide) w e
theorem OpcodeListed.barg (f) : OpcodeListed.Statement (.barg f) := fun w e => listed_encFX _ f (by decide) w e
theorem OpcodeListed.enq (f) : OpcodeListed.Statement (.enq f) := fun w e => listed_encFX _ f (by decide) w e
theorem OpcodeListed.yield (f) : OpcodeListed.Statement (.yield f) := fun w e => listed_encFX _ f (by decide) w e
theorem OpcodeListed.napc (f) : OpcodeListed.Statement (.napc f) := fun w e => listed_encFX _ f (by decide) w e
theorem OpcodeListed.pfh (f) : OpcodeListed.Statement (.pfh f) := fun w e => listed_encFX _ f (by decide) w e
theorem OpcodeListed.vmov (f) : OpcodeListed.Statement (.vmov f) := fun w e => listed_encV3 _ f (by decide) w e
theorem OpcodeListed.vmovi (f) : OpcodeListed.Statement (.vmovi f) := fun w e => listed_encV2I _ f (by decide) w e
theorem OpcodeListed.vbcast (f) : OpcodeListed.Statement (.vbcast f) := fun w e => listed_encV3 _ f (by decide) w e
theorem OpcodeListed.vlane (f) : OpcodeListed.Statement (.vlane f) := fun w e => listed_encV3 _ f (by decide) w e
theorem OpcodeListed.vadd (f) : OpcodeListed.Statement (.vadd f) := fun w e => listed_encV3 _ f (by decide) w e
theorem OpcodeListed.vsub (f) : OpcodeListed.Statement (.vsub f) := fun w e => listed_encV3 _ f (by decide) w e
theorem OpcodeListed.vmul (f) : OpcodeListed.Statement (.vmul f) := fun w e => listed_encV3 _ f (by decide) w e
theorem OpcodeListed.vmulh (f) : OpcodeListed.Statement (.vmulh f) := fun w e => listed_encV3 _ f (by decide) w e
theorem OpcodeListed.vmulhn (f) : OpcodeListed.Statement (.vmulhn f) := fun w e => listed_encV3 _ f (by decide) w e
theorem OpcodeListed.vmad (f) : OpcodeListed.Statement (.vmad f) := fun w e => listed_encV3 _ f (by decide) w e
theorem OpcodeListed.vand (f) : OpcodeListed.Statement (.vand f) := fun w e => listed_encV3 _ f (by decide) w e
theorem OpcodeListed.vor (f) : OpcodeListed.Statement (.vor f) := fun w e => listed_encV3 _ f (by decide) w e
theorem OpcodeListed.vxor (f) : OpcodeListed.Statement (.vxor f) := fun w e => listed_encV3 _ f (by decide) w e
theorem OpcodeListed.vandn (f) : OpcodeListed.Statement (.vandn f) := fun w e => listed_encV3 _ f (by decide) w e
theorem OpcodeListed.vshl (f) : OpcodeListed.Statement (.vshl f) := fun w e => listed_encV3 _ f (by decide) w e
theorem OpcodeListed.vshr (f) : OpcodeListed.Statement (.vshr f) := fun w e => listed_encV3 _ f (by decide) w e
theorem OpcodeListed.vsra (f) : OpcodeListed.Statement (.vsra f) := fun w e => listed_encV3 _ f (by decide) w e
theorem OpcodeListed.vmin (f) : OpcodeListed.Statement (.vmin f) := fun w e => listed_encV3 _ f (by decide) w e
theorem OpcodeListed.vmax (f) : OpcodeListed.Statement (.vmax f) := fun w e => listed_encV3 _ f (by decide) w e
theorem OpcodeListed.vminn (f) : OpcodeListed.Statement (.vminn f) := fun w e => listed_encV3 _ f (by decide) w e
theorem OpcodeListed.vmaxn (f) : OpcodeListed.Statement (.vmaxn f) := fun w e => listed_encV3 _ f (by decide) w e
theorem OpcodeListed.vabs (f) : OpcodeListed.Statement (.vabs f) := fun w e => listed_encV3 _ f (by decide) w e
theorem OpcodeListed.vcmp (f) : OpcodeListed.Statement (.vcmp f) := fun w e => listed_encV3 _ f (by decide) w e
theorem OpcodeListed.vsel (f) : OpcodeListed.Statement (.vsel f) := fun w e => listed_encV3 _ f (by decide) w e
theorem OpcodeListed.vclz (f) : OpcodeListed.Statement (.vclz f) := fun w e => listed_encV3 _ f (by decide) w e
theorem OpcodeListed.vpopc (f) : OpcodeListed.Statement (.vpopc f) := fun w e => listed_encV3 _ f (by decide) w e
theorem OpcodeListed.vbfx (f) : OpcodeListed.Statement (.vbfx f) := fun w e => listed_encV2I _ f (by decide) w e
theorem OpcodeListed.vbfi (f) : OpcodeListed.Statement (.vbfi f) := fun w e => listed_encV2I _ f (by decide) w e
theorem OpcodeListed.vadds (f) : OpcodeListed.Statement (.vadds f) := fun w e => listed_encV3 _ f (by decide) w e
theorem OpcodeListed.vsubs (f) : OpcodeListed.Statement (.vsubs f) := fun w e => listed_encV3 _ f (by decide) w e
theorem OpcodeListed.vdot4 (f) : OpcodeListed.Statement (.vdot4 f) := fun w e => listed_encV3 _ f (by decide) w e
theorem OpcodeListed.vpermb (f) : OpcodeListed.Statement (.vpermb f) := fun w e => listed_encV3 _ f (by decide) w e
theorem OpcodeListed.vtag (f) : OpcodeListed.Statement (.vtag f) := fun w e => listed_encV2I _ f (by decide) w e
theorem OpcodeListed.vtagrRead (f) : OpcodeListed.Statement (.vtagrRead f) := fun w e => listed_encV3 _ f (by decide) w e
theorem OpcodeListed.vtagrSet (f) : OpcodeListed.Statement (.vtagrSet f) := fun w e => listed_encV3 _ f (by decide) w e
theorem OpcodeListed.fadd (f) : OpcodeListed.Statement (.fadd f) := fun w e => listed_encV3 _ f (by decide) w e
theorem OpcodeListed.fsub (f) : OpcodeListed.Statement (.fsub f) := fun w e => listed_encV3 _ f (by decide) w e
theorem OpcodeListed.fmul (f) : OpcodeListed.Statement (.fmul f) := fun w e => listed_encV3 _ f (by decide) w e
theorem OpcodeListed.ffma (f) : OpcodeListed.Statement (.ffma f) := fun w e => listed_encV3 _ f (by decide) w e
theorem OpcodeListed.ffms (f) : OpcodeListed.Statement (.ffms f) := fun w e => listed_encV3 _ f (by decide) w e
theorem OpcodeListed.fnma (f) : OpcodeListed.Statement (.fnma f) := fun w e => listed_encV3 _ f (by decide) w e
theorem OpcodeListed.fmin (f) : OpcodeListed.Statement (.fmin f) := fun w e => listed_encV3 _ f (by decide) w e
theorem OpcodeListed.fmax (f) : OpcodeListed.Statement (.fmax f) := fun w e => listed_encV3 _ f (by decide) w e
theorem OpcodeListed.fabs (f) : OpcodeListed.Statement (.fabs f) := fun w e => listed_encV3 _ f (by decide) w e
theorem OpcodeListed.fneg (f) : OpcodeListed.Statement (.fneg f) := fun w e => listed_encV3 _ f (by decide) w e
theorem OpcodeListed.fcmp (f) : OpcodeListed.Statement (.fcmp f) := fun w e => listed_encV3 _ f (by decide) w e
theorem OpcodeListed.fclass (f) : OpcodeListed.Statement (.fclass f) := fun w e => listed_encV3 _ f (by decide) w e
theorem OpcodeListed.frnd (f) : OpcodeListed.Statement (.frnd f) := fun w e => listed_encV3 _ f (by decide) w e
theorem OpcodeListed.fdiv (f) : OpcodeListed.Statement (.fdiv f) := fun w e => listed_encV3 _ f (by decide) w e
theorem OpcodeListed.fsqrt (f) : OpcodeListed.Statement (.fsqrt f) := fun w e => listed_encV3 _ f (by decide) w e
theorem OpcodeListed.frcp (f) : OpcodeListed.Statement (.frcp f) := fun w e => listed_encV3 _ f (by decide) w e
theorem OpcodeListed.frsq (f) : OpcodeListed.Statement (.frsq f) := fun w e => listed_encV3 _ f (by decide) w e
theorem OpcodeListed.fexp2 (f) : OpcodeListed.Statement (.fexp2 f) := fun w e => listed_encV3 _ f (by decide) w e
theorem OpcodeListed.flog2 (f) : OpcodeListed.Statement (.flog2 f) := fun w e => listed_encV3 _ f (by decide) w e
theorem OpcodeListed.fsin (f) : OpcodeListed.Statement (.fsin f) := fun w e => listed_encV3 _ f (by decide) w e
theorem OpcodeListed.fcos (f) : OpcodeListed.Statement (.fcos f) := fun w e => listed_encV3 _ f (by decide) w e
theorem OpcodeListed.ftanh (f) : OpcodeListed.Statement (.ftanh f) := fun w e => listed_encV3 _ f (by decide) w e
theorem OpcodeListed.fsigm (f) : OpcodeListed.Statement (.fsigm f) := fun w e => listed_encV3 _ f (by decide) w e
theorem OpcodeListed.fdot2 (f) : OpcodeListed.Statement (.fdot2 f) := fun w e => listed_encV3 _ f (by decide) w e
theorem OpcodeListed.cvt (f) : OpcodeListed.Statement (.cvt f) := fun w e => listed_encV3 _ f (by decide) w e
theorem OpcodeListed.cvti (f) : OpcodeListed.Statement (.cvti f) := fun w e => listed_encV3 _ f (by decide) w e
theorem OpcodeListed.cvtf (f) : OpcodeListed.Statement (.cvtf f) := fun w e => listed_encV3 _ f (by decide) w e
theorem OpcodeListed.lmul (f) : OpcodeListed.Statement (.lmul f) := fun w e => listed_encV3 _ f (by decide) w e
theorem OpcodeListed.ldiv (f) : OpcodeListed.Statement (.ldiv f) := fun w e => listed_encV3 _ f (by decide) w e
theorem OpcodeListed.lsqr (f) : OpcodeListed.Statement (.lsqr f) := fun w e => listed_encV3 _ f (by decide) w e
theorem OpcodeListed.lsqrt (f) : OpcodeListed.Statement (.lsqrt f) := fun w e => listed_encV3 _ f (by decide) w e
theorem OpcodeListed.lscale (f) : OpcodeListed.Statement (.lscale f) := fun w e => listed_encV3 _ f (by decide) w e
theorem OpcodeListed.lmaxs (f) : OpcodeListed.Statement (.lmaxs f) := fun w e => listed_encV3 _ f (by decide) w e
theorem OpcodeListed.pack (f) : OpcodeListed.Statement (.pack f) := fun w e => listed_encV3 _ f (by decide) w e
theorem OpcodeListed.unpack (f) : OpcodeListed.Statement (.unpack f) := fun w e => listed_encV3 _ f (by decide) w e
theorem OpcodeListed.lcmp (f) : OpcodeListed.Statement (.lcmp f) := fun w e => listed_encV3 _ f (by decide) w e
theorem OpcodeListed.shfl (f) : OpcodeListed.Statement (.shfl f) := fun w e => listed_encV3 _ f (by decide) w e
theorem OpcodeListed.vote (f) : OpcodeListed.Statement (.vote f) := fun w e => listed_encV3 _ f (by decide) w e
theorem OpcodeListed.vred (f) : OpcodeListed.Statement (.vred f) := fun w e => listed_encV3 _ f (by decide) w e
theorem OpcodeListed.vscan (f) : OpcodeListed.Statement (.vscan f) := fun w e => listed_encV3 _ f (by decide) w e
theorem OpcodeListed.vrdl (f) : OpcodeListed.Statement (.vrdl f) := fun w e => listed_encV3 _ f (by decide) w e
theorem OpcodeListed.vwrl (f) : OpcodeListed.Statement (.vwrl f) := fun w e => listed_encV3 _ f (by decide) w e
theorem OpcodeListed.pcount (f) : OpcodeListed.Statement (.pcount f) := fun w e => listed_encV3 _ f (by decide) w e
theorem OpcodeListed.pmov (f) : OpcodeListed.Statement (.pmov f) := fun w e => listed_encV3 _ f (by decide) w e
theorem OpcodeListed.pfroms (f) : OpcodeListed.Statement (.pfroms f) := fun w e => listed_encV3 _ f (by decide) w e
theorem OpcodeListed.ptos (f) : OpcodeListed.Statement (.ptos f) := fun w e => listed_encV3 _ f (by decide) w e
theorem OpcodeListed.dmask (f) : OpcodeListed.Statement (.dmask f) := fun w e => listed_encV3 _ f (by decide) w e
theorem OpcodeListed.vcmx (f) : OpcodeListed.Statement (.vcmx f) := fun w e => listed_encV3 _ f (by decide) w e
theorem OpcodeListed.vmatch (f) : OpcodeListed.Statement (.vmatch f) := fun w e => listed_encV3 _ f (by decide) w e
theorem OpcodeListed.sld (f) : OpcodeListed.Statement (.sld f) := fun w e => listed_encFM _ f (by decide) w e
theorem OpcodeListed.sst (f) : OpcodeListed.Statement (.sst f) := fun w e => listed_encFM _ f (by decide) w e
theorem OpcodeListed.vld (f) : OpcodeListed.Statement (.vld f) := fun w e => listed_encFM _ f (by decide) w e
theorem OpcodeListed.vst (f) : OpcodeListed.Statement (.vst f) := fun w e => listed_encFM _ f (by decide) w e
theorem OpcodeListed.vgld (f) : OpcodeListed.Statement (.vgld f) := fun w e => listed_encFM _ f (by decide) w e
theorem OpcodeListed.vsct (f) : OpcodeListed.Statement (.vsct f) := fun w e => listed_encFM _ f (by decide) w e
theorem OpcodeListed.lld (f) : OpcodeListed.Statement (.lld f) := fun w e => listed_encFM _ f (by decide) w e
theorem OpcodeListed.lst (f) : OpcodeListed.Statement (.lst f) := fun w e => listed_encFM _ f (by decide) w e
theorem OpcodeListed.wld (f) : OpcodeListed.Statement (.wld f) := fun w e => listed_encFM _ f (by decide) w e
theorem OpcodeListed.tld (f) : OpcodeListed.Statement (.tld f) := fun w e => listed_encFM _ f (by decide) w e
theorem OpcodeListed.tst (f) : OpcodeListed.Statement (.tst f) := fun w e => listed_encFM _ f (by decide) w e
theorem OpcodeListed.spush (f) : OpcodeListed.Statement (.spush f) := fun w e => listed_encFM _ f (by decide) w e
theorem OpcodeListed.spop (f) : OpcodeListed.Statement (.spop f) := fun w e => listed_encFM _ f (by decide) w e
theorem OpcodeListed.vpush (f) : OpcodeListed.Statement (.vpush f) := fun w e => listed_encFM _ f (by decide) w e
theorem OpcodeListed.vpop (f) : OpcodeListed.Statement (.vpop f) := fun w e => listed_encFM _ f (by decide) w e
theorem OpcodeListed.satom (f) : OpcodeListed.Statement (.satom f) := fun w e => listed_encFA _ f (by decide) w e
theorem OpcodeListed.scas (f) : OpcodeListed.Statement (.scas f) := fun w e => listed_encFA _ f (by decide) w e
theorem OpcodeListed.vatom (f) : OpcodeListed.Statement (.vatom f) := fun w e => listed_encFA _ f (by decide) w e
theorem OpcodeListed.vcas (f) : OpcodeListed.Statement (.vcas f) := fun w e => listed_encFA _ f (by decide) w e
theorem OpcodeListed.fatom (f) : OpcodeListed.Statement (.fatom f) := fun w e => listed_encFA _ f (by decide) w e
theorem OpcodeListed.latom (f) : OpcodeListed.Statement (.latom f) := fun w e => listed_encFA _ f (by decide) w e
theorem OpcodeListed.waita (f) : OpcodeListed.Statement (.waita f) := fun w e => listed_encFA _ f (by decide) w e
theorem OpcodeListed.arrw (f) : OpcodeListed.Statement (.arrw f) := fun w e => listed_encFA _ f (by decide) w e
theorem OpcodeListed.tkreq (f) : OpcodeListed.Statement (.tkreq f) := fun w e => listed_encFA _ f (by decide) w e
theorem OpcodeListed.tkwait (f) : OpcodeListed.Statement (.tkwait f) := fun w e => listed_encFA _ f (by decide) w e
theorem OpcodeListed.tkserve (f) : OpcodeListed.Statement (.tkserve f) := fun w e => listed_encFA _ f (by decide) w e
theorem OpcodeListed.fence (f) : OpcodeListed.Statement (.fence f) := fun w e => listed_encFX _ f (by decide) w e
theorem OpcodeListed.waitc (f) : OpcodeListed.Statement (.waitc f) := fun w e => listed_encFX _ f (by decide) w e
theorem OpcodeListed.drainst (f) : OpcodeListed.Statement (.drainst f) := fun w e => listed_encFX _ f (by decide) w e
theorem OpcodeListed.cwb (f) : OpcodeListed.Statement (.cwb f) := fun w e => listed_encFM _ f (by decide) w e
theorem OpcodeListed.cinv (f) : OpcodeListed.Statement (.cinv f) := fun w e => listed_encFM _ f (by decide) w e
theorem OpcodeListed.cwbi (f) : OpcodeListed.Statement (.cwbi f) := fun w e => listed_encFM _ f (by decide) w e
theorem OpcodeListed.pref (f) : OpcodeListed.Statement (.pref f) := fun w e => listed_encFM _ f (by decide) w e
theorem OpcodeListed.wrsync (f) : OpcodeListed.Statement (.wrsync f) := fun w e => listed_encFX _ f (by decide) w e
theorem OpcodeListed.waitb (f) : OpcodeListed.Statement (.waitb f) := fun w e => listed_encFX _ f (by decide) w e
theorem OpcodeListed.cpy (f) : OpcodeListed.Statement (.cpy f) := fun w e => listed_encFA _ f (by decide) w e
theorem OpcodeListed.cpy2d (f) : OpcodeListed.Statement (.cpy2d f) := fun w e => listed_encFA _ f (by decide) w e
theorem OpcodeListed.cpysp (f) : OpcodeListed.Statement (.cpysp f) := fun w e => listed_encFA _ f (by decide) w e
theorem OpcodeListed.csrwk (f) : OpcodeListed.Statement (.csrwk f) := fun w e => listed_encFA _ f (by decide) w e
theorem OpcodeListed.xfer (f) : OpcodeListed.Statement (.xfer f) := fun w e => listed_encFA _ f (by decide) w e
theorem OpcodeListed.xget (f) : OpcodeListed.Statement (.xget f) := fun w e => listed_encFA _ f (by decide) w e
theorem OpcodeListed.poolfill (f) : OpcodeListed.Statement (.poolfill f) := fun w e => listed_encFA _ f (by decide) w e
theorem OpcodeListed.poolcopy (f) : OpcodeListed.Statement (.poolcopy f) := fun w e => listed_encFA _ f (by decide) w e
theorem OpcodeListed.poolcmp (f) : OpcodeListed.Statement (.poolcmp f) := fun w e => listed_encFA _ f (by decide) w e
theorem OpcodeListed.poolred (f) : OpcodeListed.Statement (.poolred f) := fun w e => listed_encFA _ f (by decide) w e
theorem OpcodeListed.mpost (f) : OpcodeListed.Statement (.mpost f) := fun w e => listed_encFA _ f (by decide) w e
theorem OpcodeListed.mtake (f) : OpcodeListed.Statement (.mtake f) := fun w e => listed_encFMX _ f (by decide) w e
theorem OpcodeListed.mdone (f) : OpcodeListed.Statement (.mdone f) := fun w e => listed_encFMX _ f (by decide) w e
theorem OpcodeListed.mopa (f) : OpcodeListed.Statement (.mopa f) := fun w e => listed_encFMX _ f (by decide) w e
theorem OpcodeListed.mopb (f) : OpcodeListed.Statement (.mopb f) := fun w e => listed_encFMX _ f (by decide) w e
theorem OpcodeListed.mzero (f) : OpcodeListed.Statement (.mzero f) := fun w e => listed_encFMX _ f (by decide) w e
theorem OpcodeListed.mma (f) : OpcodeListed.Statement (.mma f) := fun w e => listed_encFMX _ f (by decide) w e
theorem OpcodeListed.mmag (f) : OpcodeListed.Statement (.mmag f) := fun w e => listed_encFMX _ f (by decide) w e
theorem OpcodeListed.mldc (f) : OpcodeListed.Statement (.mldc f) := fun w e => listed_encFMX _ f (by decide) w e
theorem OpcodeListed.mstf (f) : OpcodeListed.Statement (.mstf f) := fun w e => listed_encFMX _ f (by decide) w e
theorem OpcodeListed.mstl (f) : OpcodeListed.Statement (.mstl f) := fun w e => listed_encFMX _ f (by decide) w e
theorem OpcodeListed.mprogRead (f) : OpcodeListed.Statement (.mprogRead f) := fun w e => listed_encFMX _ f (by decide) w e
theorem OpcodeListed.mprogSet (f) : OpcodeListed.Statement (.mprogSet f) := fun w e => listed_encFMX _ f (by decide) w e
theorem OpcodeListed.mprogClr (f) : OpcodeListed.Statement (.mprogClr f) := fun w e => listed_encFMX _ f (by decide) w e
theorem OpcodeListed.mtagtRead (f) : OpcodeListed.Statement (.mtagtRead f) := fun w e => listed_encFMX _ f (by decide) w e
theorem OpcodeListed.mtagtSet (f) : OpcodeListed.Statement (.mtagtSet f) := fun w e => listed_encFMX _ f (by decide) w e
theorem OpcodeListed.trap (f) : OpcodeListed.Statement (.trap f) := fun w e => listed_encFX _ f (by decide) w e
theorem OpcodeListed.brk (f) : OpcodeListed.Statement (.brk f) := fun w e => listed_encFX _ f (by decide) w e
theorem OpcodeListed.rft (f) : OpcodeListed.Statement (.rft f) := fun w e => listed_encFX _ f (by decide) w e
theorem OpcodeListed.srrp (f) : OpcodeListed.Statement (.srrp f) := fun w e => listed_encFX _ f (by decide) w e
theorem OpcodeListed.srwp (f) : OpcodeListed.Statement (.srwp f) := fun w e => listed_encFX _ f (by decide) w e
theorem OpcodeListed.wgend (f) : OpcodeListed.Statement (.wgend f) := fun w e => listed_encFX _ f (by decide) w e
theorem OpcodeListed.gangend (f) : OpcodeListed.Statement (.gangend f) := fun w e => listed_encFX _ f (by decide) w e
theorem OpcodeListed.swapb (f) : OpcodeListed.Statement (.swapb f) := fun w e => listed_encFX _ f (by decide) w e
theorem OpcodeListed.purgev (f) : OpcodeListed.Statement (.purgev f) := fun w e => listed_encFX _ f (by decide) w e
theorem OpcodeListed.xlatinv (f) : OpcodeListed.Statement (.xlatinv f) := fun w e => listed_encFX _ f (by decide) w e
theorem OpcodeListed.sfqpop (f) : OpcodeListed.Statement (.sfqpop f) := fun w e => listed_encFX _ f (by decide) w e
theorem OpcodeListed.siderd (f) : OpcodeListed.Statement (.siderd f) := fun w e => listed_encFX _ f (by decide) w e
theorem OpcodeListed.haltcHalt (f) : OpcodeListed.Statement (.haltcHalt f) := fun w e => listed_encFX _ f (by decide) w e
theorem OpcodeListed.haltcLift (f) : OpcodeListed.Statement (.haltcLift f) := fun w e => listed_encFX _ f (by decide) w e
theorem OpcodeListed.haltcRetire (f) : OpcodeListed.Statement (.haltcRetire f) := fun w e => listed_encFX _ f (by decide) w e
theorem OpcodeListed.evpost (f) : OpcodeListed.Statement (.evpost f) := fun w e => listed_encFX _ f (by decide) w e
theorem OpcodeListed.issuePick (a0) : OpcodeListed.Statement (.issuePick a0) := fun _ e => nomatch e
theorem OpcodeListed.returningAccessCommit (a0) : OpcodeListed.Statement (.returningAccessCommit a0) := fun _ e => nomatch e
theorem OpcodeListed.returningAccessFault (a0) : OpcodeListed.Statement (.returningAccessFault a0) := fun _ e => nomatch e
theorem OpcodeListed.storeFaultReport (a0) : OpcodeListed.Statement (.storeFaultReport a0) := fun _ e => nomatch e
theorem OpcodeListed.rd (a0) (a1) : OpcodeListed.Statement (.rd a0 a1) := fun _ e => nomatch e
theorem OpcodeListed.own (a0) (a1) : OpcodeListed.Statement (.own a0 a1) := fun _ e => nomatch e
theorem OpcodeListed.commandComplete (a0) : OpcodeListed.Statement (.commandComplete a0) := fun _ e => nomatch e
theorem OpcodeListed.commandFailure (a0) (a1) : OpcodeListed.Statement (.commandFailure a0 a1) := fun _ e => nomatch e
theorem OpcodeListed.bitmapChunkSet (a0) : OpcodeListed.Statement (.bitmapChunkSet a0) := fun _ e => nomatch e
theorem OpcodeListed.mpostAdmit (a0) : OpcodeListed.Statement (.mpostAdmit a0) := fun _ e => nomatch e
theorem OpcodeListed.bctlResume (a0) : OpcodeListed.Statement (.bctlResume a0) := fun _ e => nomatch e
theorem OpcodeListed.bctlSkip (a0) : OpcodeListed.Statement (.bctlSkip a0) := fun _ e => nomatch e
theorem OpcodeListed.bctlEnd (a0) : OpcodeListed.Statement (.bctlEnd a0) := fun _ e => nomatch e
theorem OpcodeListed.ifetchFill (a0) (a1) (a2) : OpcodeListed.Statement (.ifetchFill a0 a1 a2) := fun _ e => nomatch e
theorem OpcodeListed.napExpiry (a0) : OpcodeListed.Statement (.napExpiry a0) := fun _ e => nomatch e
theorem OpcodeListed.waitaRecheck (a0) : OpcodeListed.Statement (.waitaRecheck a0) := fun _ e => nomatch e
theorem OpcodeListed.arrwWake (a0) : OpcodeListed.Statement (.arrwWake a0) := fun _ e => nomatch e
theorem OpcodeListed.tkwaitRecheck (a0) : OpcodeListed.Statement (.tkwaitRecheck a0) := fun _ e => nomatch e
theorem OpcodeListed.launchComplete (a0) : OpcodeListed.Statement (.launchComplete a0) := fun _ e => nomatch e
theorem OpcodeListed.eventArbitration : OpcodeListed.Statement (.eventArbitration) := fun _ e => nomatch e
theorem OpcodeListed.overflowMarker : OpcodeListed.Statement (.overflowMarker) := fun _ e => nomatch e
theorem OpcodeListed.fwctlUpdate : OpcodeListed.Statement (.fwctlUpdate) := fun _ e => nomatch e
theorem OpcodeListed.commitGo : OpcodeListed.Statement (.commitGo) := fun _ e => nomatch e
theorem OpcodeListed.readyUp : OpcodeListed.Statement (.readyUp) := fun _ e => nomatch e
theorem OpcodeListed.pendingStoreFaultTrap (a0) : OpcodeListed.Statement (.pendingStoreFaultTrap a0) := fun _ e => nomatch e
theorem OpcodeListed.commandFailureTrap (a0) : OpcodeListed.Statement (.commandFailureTrap a0) := fun _ e => nomatch e
theorem OpcodeListed.spillComplete (a0) : OpcodeListed.Statement (.spillComplete a0) := fun _ e => nomatch e
theorem OpcodeListed.saveComplete (a0) : OpcodeListed.Statement (.saveComplete a0) := fun _ e => nomatch e
theorem OpcodeListed.stackSpillFill (a0) (a1) : OpcodeListed.Statement (.stackSpillFill a0 a1) := fun _ e => nomatch e
theorem OpcodeListed.push (a0) (a1) : OpcodeListed.Statement (.push a0 a1) := fun _ e => nomatch e
theorem OpcodeListed.inv (a0) (a1) : OpcodeListed.Statement (.inv a0 a1) := fun _ e => nomatch e
theorem OpcodeListed.eviction (a0) (a1) : OpcodeListed.Statement (.eviction a0 a1) := fun _ e => nomatch e
theorem OpcodeListed.remoteAtomic (a0) : OpcodeListed.Statement (.remoteAtomic a0) := fun _ e => nomatch e
theorem OpcodeListed.hostRdmaWrite (a0) (a1) : OpcodeListed.Statement (.hostRdmaWrite a0 a1) := fun _ e => nomatch e
theorem OpcodeListed.hostRdmaRead (a0) (a1) : OpcodeListed.Statement (.hostRdmaRead a0 a1) := fun _ e => nomatch e
theorem OpcodeListed.remoteInvalidation (a0) (a1) : OpcodeListed.Statement (.remoteInvalidation a0 a1) := fun _ e => nomatch e
theorem OpcodeListed.fabricTimeout (a0) : OpcodeListed.Statement (.fabricTimeout a0) := fun _ e => nomatch e
theorem OpcodeListed.linkFailure (a0) : OpcodeListed.Statement (.linkFailure a0) := fun _ e => nomatch e
theorem OpcodeListed.peerRejoin (a0) (a1) : OpcodeListed.Statement (.peerRejoin a0 a1) := fun _ e => nomatch e
theorem OpcodeListed.parityDelta (a0) : OpcodeListed.Statement (.parityDelta a0) := fun _ e => nomatch e
theorem OpcodeListed.parityDeltaAck (a0) (a1) : OpcodeListed.Statement (.parityDeltaAck a0 a1) := fun _ e => nomatch e
theorem OpcodeListed.uncorrectableError (a0) : OpcodeListed.Statement (.uncorrectableError a0) := fun _ e => nomatch e
theorem OpcodeListed.parityWordRebuild (a0) : OpcodeListed.Statement (.parityWordRebuild a0) := fun _ e => nomatch e
theorem OpcodeListed.groupDegraded (a0) : OpcodeListed.Statement (.groupDegraded a0) := fun _ e => nomatch e
theorem OpcodeListed.parityRowRebuild (a0) : OpcodeListed.Statement (.parityRowRebuild a0) := fun _ e => nomatch e
theorem OpcodeListed.parityRebuildComplete : OpcodeListed.Statement (.parityRebuildComplete) := fun _ e => nomatch e
theorem OpcodeListed.parityMemberReplace (a0) (a1) : OpcodeListed.Statement (.parityMemberReplace a0 a1) := fun _ e => nomatch e
theorem OpcodeListed.parityRowRestore (a0) : OpcodeListed.Statement (.parityRowRestore a0) := fun _ e => nomatch e
theorem OpcodeListed.dieLoss (a0) : OpcodeListed.Statement (.dieLoss a0) := fun _ e => nomatch e
theorem OpcodeListed.dieDirectoryRebuild (a0) : OpcodeListed.Statement (.dieDirectoryRebuild a0) := fun _ e => nomatch e
theorem OpcodeListed.dieRebuildComplete (a0) : OpcodeListed.Statement (.dieRebuildComplete a0) := fun _ e => nomatch e
theorem OpcodeListed.ringPublish (a0) (a1) : OpcodeListed.Statement (.ringPublish a0 a1) := fun _ e => nomatch e
theorem OpcodeListed.xferPacketArrival (a0) : OpcodeListed.Statement (.xferPacketArrival a0) := fun _ e => nomatch e
theorem OpcodeListed.xgetReadRequest (a0) (a1) : OpcodeListed.Statement (.xgetReadRequest a0 a1) := fun _ e => nomatch e
theorem OpcodeListed.packetResend (a0) : OpcodeListed.Statement (.packetResend a0) := fun _ e => nomatch e
theorem OpcodeListed.extentRelease (a0) (a1) : OpcodeListed.Statement (.extentRelease a0 a1) := fun _ e => nomatch e
theorem OpcodeListed.poolDeviceCompletion (a0) (a1) : OpcodeListed.Statement (.poolDeviceCompletion a0 a1) := fun _ e => nomatch e
theorem OpcodeListed.entryAgeRaise (a0) (a1) : OpcodeListed.Statement (.entryAgeRaise a0 a1) := fun _ e => nomatch e
theorem OpcodeListed.refreshWindowStart (a0) : OpcodeListed.Statement (.refreshWindowStart a0) := fun _ e => nomatch e
theorem OpcodeListed.refreshWindowEnd (a0) : OpcodeListed.Statement (.refreshWindowEnd a0) := fun _ e => nomatch e
theorem OpcodeListed.kickSlotWrite (a0) (a1) : OpcodeListed.Statement (.kickSlotWrite a0 a1) := fun _ e => nomatch e
theorem OpcodeListed.qidxProdWrite (a0) (a1) : OpcodeListed.Statement (.qidxProdWrite a0 a1) := fun _ e => nomatch e
theorem OpcodeListed.kickRun (a0) : OpcodeListed.Statement (.kickRun a0) := fun _ e => nomatch e
theorem OpcodeListed.kickRegister (a0) : OpcodeListed.Statement (.kickRegister a0) := fun _ e => nomatch e
theorem OpcodeListed.kickUnregister (a0) : OpcodeListed.Statement (.kickUnregister a0) := fun _ e => nomatch e
theorem OpcodeListed.nodeStart (a0) (a1) : OpcodeListed.Statement (.nodeStart a0 a1) := fun _ e => nomatch e
theorem OpcodeListed.gangPlacement (a0) (a1) : OpcodeListed.Statement (.gangPlacement a0 a1) := fun _ e => nomatch e
theorem OpcodeListed.holdbackReserve : OpcodeListed.Statement (.holdbackReserve) := fun _ e => nomatch e
theorem OpcodeListed.sliceExpiry (a0) : OpcodeListed.Statement (.sliceExpiry a0) := fun _ e => nomatch e
theorem OpcodeListed.gangSave (a0) : OpcodeListed.Statement (.gangSave a0) := fun _ e => nomatch e
theorem OpcodeListed.bankSwapComplete (a0) : OpcodeListed.Statement (.bankSwapComplete a0) := fun _ e => nomatch e
theorem OpcodeListed.gangResume (a0) (a1) : OpcodeListed.Statement (.gangResume a0 a1) := fun _ e => nomatch e
theorem OpcodeListed.qcfgWrite (a0) (a1) : OpcodeListed.Statement (.qcfgWrite a0 a1) := fun _ e => nomatch e
theorem OpcodeListed.registerWrite (a0) (a1) (a2) (a3) : OpcodeListed.Statement (.registerWrite a0 a1 a2 a3) := fun _ e => nomatch e
theorem OpcodeListed.coldStart : OpcodeListed.Statement (.coldStart) := fun _ e => nomatch e
theorem OpcodeListed.warmStart : OpcodeListed.Statement (.warmStart) := fun _ e => nomatch e
theorem OpcodeListed.startTimeout : OpcodeListed.Statement (.startTimeout) := fun _ e => nomatch e
theorem OpcodeListed.wdogKick (a0) : OpcodeListed.Statement (.wdogKick a0) := fun _ e => nomatch e
theorem OpcodeListed.watchdogExpiry (a0) : OpcodeListed.Statement (.watchdogExpiry a0) := fun _ e => nomatch e
theorem OpcodeListed.trialExpiry : OpcodeListed.Statement (.trialExpiry) := fun _ e => nomatch e
theorem OpcodeListed.spdmGetVersion : OpcodeListed.Statement (.spdmGetVersion) := fun _ e => nomatch e
theorem OpcodeListed.spdmGetCapabilities : OpcodeListed.Statement .spdmGetCapabilities := fun _ e => nomatch e
theorem OpcodeListed.spdmNegotiateAlgorithms (a0) : OpcodeListed.Statement (.spdmNegotiateAlgorithms a0) := fun _ e => nomatch e
theorem OpcodeListed.spdmGetDigests : OpcodeListed.Statement (.spdmGetDigests) := fun _ e => nomatch e
theorem OpcodeListed.spdmGetCertificate (a0) (a1) (a2) : OpcodeListed.Statement (.spdmGetCertificate a0 a1 a2) := fun _ e => nomatch e
theorem OpcodeListed.spdmChallenge (a0) (a1) : OpcodeListed.Statement (.spdmChallenge a0 a1) := fun _ e => nomatch e
theorem OpcodeListed.spdmGetMeasurements (a0) (a1) : OpcodeListed.Statement (.spdmGetMeasurements a0 a1) := fun _ e => nomatch e
theorem OpcodeListed.extentAdd (a0) (a1) (a2) : OpcodeListed.Statement (.extentAdd a0 a1 a2) := fun _ e => nomatch e
theorem OpcodeListed.powerLoss : OpcodeListed.Statement (.powerLoss) := fun _ e => nomatch e

end Sys2Proof.Laws
end

