-- ==== Sys2Proof/Tests/Slice0.lean ====
section
/-!
SUPPORT. Tests: words and steps from the spec's rules and worked examples, and for each statement of the package a state and
operands that meet its hypotheses, clause by clause.
-/

section

set_option maxRecDepth 100000
-- Each test in its turn: many at once would need more threads than the memory holds.
set_option Elab.async false

namespace Sys2Proof.Tests
open Sys2Proof Sys2Proof.Machine

/-! ### Small states and operands -/

def g0 : Guard := { gp := 0, gs := false }
def v3 : V3 :=
  { g := g0, vd := 4, va := 0, vb := 0, vc := 0, ma := false, mb := false, mc := false, ty := 0, rm := 0, sub := 0, pp := 0, bs := false }
def v2 : V2I := { g := g0, vd := 4, va := 0, ma := false, ty := 0, rm := 0, sub := 0, pp := 0, imm := 0 }
def s3 : S3 :=
  { g := g0, sd := 5, sa := 6, sb := 7, sc := 0, ma := false, mb := false, mc := false, st := .i64, sub := 0, bd := 0, ba := 0, bn := false }
def si : SI := { g := g0, sd := 5, sa := 0, ma := false, st := .i64, sub := 0, imm := 0 }
def fm : FM :=
  { g := g0, d := 5, sa := 0, vx := 0, md := false, ma := false, mx := false, ty := 0, ord := .rlx, sc := .core, sub := 0, pp := 0, off := 0 }
def fb : FB := { g := g0, ba := 0, bn := false, slot := 0, disp := 0, sa := 0, ma := false, pa := 0, sub := 0 }
def fx : FX := { g := g0, sd := 0, sa := 0, sb := 0, ma := false, mb := false, imm := 0, sub := 0, pa := 0 }
def fa : FA :=
  { g := g0, d := 5, sa := 0, x := 0, y := 0, ma := false, mx := false, my := false, ty := 0, ord := .rlx, sc := .core, aop := 0, off := 0 }
def fmx : FMX :=
  { g := g0, td := 0, ta := 0, tb := 0, sa := 0, sb := 0, sc := 0, ma := false, mb := false, mc := false, mf := 0, rm := 0, sub := 0, imm := 0 }

/-- One live warp of a resident workgroup, after its creation. -/
def warp : State :=
  { State.reset with
    cur := { Hart.idle with id := 1, live := true }
    groups := [(0, { Group.zero with seed := false, nwarps := 1 })]
    launches := [(0, { Launch.zero with counter := 1, complete := false })]
    nextId := 2 }
/-- The warp inside a handler. -/
def inTrap : State :=
  { warp with cur := { warp.cur with c := { warp.cur.c with priv := true }, t := { warp.cur.t with tstat := 0xC0000 } } }
/-- A Bowler stream. -/
def bowl : State := { warp with cur := { warp.cur with role := .bowler } }
/-- The stream's registers changed. -/
def withR (s : State) (f : Regs → Regs) : State := s.mapRegs f
/-- V0 with every lane `x`, of format code `c`; V2 is F32 and V3 is I32. -/
def withV (c : Nat) (x : Word) (s : State) : State :=
  s.mapRegs (fun r => ((r.writeV 0 (Vector.replicate 32 x) (mkTag c 0)).writeV 2 (Vector.replicate 32 0) 0x300).writeV 3
    (Vector.replicate 32 0) 0x100)

/-! ### Every instruction issues somewhere -/

def class0 : List Instr :=
  [.nop, .smov { s3 with sb := 0 }, .smovi si, .smoviHi { si with sub := 1 }, .sadd s3, .saddi si, .ssub s3, .smul s3, .smulh s3,
   .smulhn { s3 with st := .n64 }, .sdiv s3, .sdivn { s3 with st := .n64 }, .srem s3, .sand s3, .sor s3, .sxor s3, .sandn s3,
   .sshl s3, .sshr s3, .ssra s3, .srot s3, .smin s3, .smax s3, .sminn { s3 with st := .n64 }, .smaxn { s3 with st := .n64 },
   .scmp { s3 with sd := 0 }, .ssel s3, .sclz { s3 with sb := 0 }, .spopc { s3 with sb := 0 }, .sbfx si, .sbfi si, .slea s3,
   .swid { s3 with sa := 0, sb := 0, st := .n64 }, .srr { si with imm := 0x010 }, .srw { si with sd := 0, imm := 0x010 },
   .sbool { s3 with sd := 0, sa := 0, sb := 0 }]
def class1 : List Instr :=
  [.br fb, .brc fb, .bri fb, .call fb, .ret fb, .loop fb, .exit fx, .msetEm fx, .msetParked { fx with sub := 1 }, .park fb, .join fx,
   .lexit fx, .brany fb, .brall fb, .bar fx, .barg fx, .enq fx, .yield fx, .napc fx, .pfh fx]
/-- Instructions whose vector sources carry the tag of `c`. -/
def class2 (c : Nat) : List Instr :=
  let t : BitVec 4 := BitVec.ofNat 4 c
  let f : V3 := { v3 with ty := t }
  let i : V2I := { v2 with ty := t }
  if c = 0 then
    [.vmov f, .vbcast f, .vand f, .vor f, .vxor f, .vandn f, .vsel f, .vpermb f, .vmovi { i with va := 0 }, .vtag v2, .vtagrRead v3,
     .vtagrSet { v3 with sub := 1, bs := true }, .shfl { f with bs := true }, .vote { f with vd := 0 }, .vrdl f,
     .vwrl { f with bs := true }, .pcount f, .pmov { f with vd := 0 }, .pfroms { f with vd := 0, bs := true }, .ptos f, .vmatch f]
  else if c = 1 then [.vadd f, .vsub f, .vmul f, .vmulh f, .vmad f, .vmin f, .vmax f, .vabs f, .vcmp { f with vd := 0, pp := 1 },
     .vshl f, .vshr f, .vsra f, .vclz f, .vpopc f, .vbfx i, .vbfi i, .vadds f, .vsubs f, .vred f, .vscan f, .cvti { f with ty := 3, sub := 1 }]
  else if c = 2 then [.vlane f, .vmulhn f, .vminn f, .vmaxn f, .dmask { f with vd := 0, bs := true }, .vcmx f]
  else if c = 3 then [.fadd f, .fsub f, .fmul f, .ffma f, .ffms f, .fnma f, .fmin f, .fmax f, .fabs f, .fneg f,
     .fcmp { f with vd := 0, pp := 1 }, .fclass f, .frnd f, .fdiv f, .fsqrt f, .frcp f, .frsq f, .fexp2 f, .flog2 f, .fsin f, .fcos f,
     .ftanh f, .fsigm f, .cvt { f with ty := 4, sub := 3 }, .cvtf { f with ty := 1, sub := 1 }, .lmaxs { f with ty := 6, sub := 3 }]
  else if c = 4 then [.fdot2 { f with vc := 2 }]
  else if c = 6 then [.lmul f, .ldiv f, .lsqr f, .lsqrt f, .lscale f, .lcmp { f with vd := 0, pp := 1 }]
  else if c = 8 then [.vdot4 { f with ty := 8, vc := 3 }]
  else if c = 10 then [.pack { f with ty := 8 }, .unpack { f with ty := 1 }]
  else []

def class6 : List Instr :=
  [.sld fm, .sst fm, .vld fm, .vst fm, .vgld fm, .vsct fm, .lld fm, .lst fm, .wld fm, .tld fm, .tst fm, .spush fm, .spop fm, .vpush fm,
   .vpop fm]
def class7 : List Instr :=
  [.satom fa, .scas fa, .vatom { fa with ty := 1 }, .vcas { fa with ty := 1 }, .fatom { fa with ty := 3, y := 2 },
   .latom { fa with ty := 1 }, .waita fa, .arrw fa, .tkreq { fa with sc := .sys }, .tkwait { fa with sc := .sys },
   .tkserve { fa with sc := .sys }]
def class8 : List Instr :=
  [.fence fx, .waitc fx, .drainst fx, .cwb fm, .cinv fm, .cwbi fm, .pref fm, .wrsync { fx with sd := 5 }, .waitb { fx with sd := 5 }]
def class9 : List Instr :=
  [.cpy fa, .cpy2d fa, .cpysp { fa with ty := 3 }, .csrwk fa, .xfer { fa with sc := .sys }, .xget { fa with sc := .sys },
   .poolfill { fa with sc := .sys }, .poolcopy { fa with sc := .sys }, .poolcmp { fa with sc := .sys },
   .poolred { fa with sc := .sys, ty := 1 }, .mpost fa]
def classA : List Instr :=
  [.mtake fmx, .mdone fmx, .mopa fmx, .mopb fmx, .mzero fmx, .mma fmx, .mmag fmx, .mldc { fmx with mf := 2 }, .mstf { fmx with mf := 2 },
   .mstl fmx, .mprogRead fmx, .mprogSet { fmx with sub := 1 }, .mprogClr { fmx with sub := 2 }, .mtagtRead fmx,
   .mtagtSet { fmx with sub := 1 }]
def classC : List Instr :=
  [.trap fx, .brk fx, .rft fx, .srrp { fx with sd := 5, imm := 0x020 }, .srwp { fx with imm := 0x020 }, .wgend fx, .gangend fx, .swapb fx,
   .purgev fx, .xlatinv fx, .sfqpop { fx with sd := 5 }, .siderd { fx with sd := 5 }, .haltcHalt { fx with sd := 5 },
   .haltcLift { fx with sd := 5, sub := 1 }, .haltcRetire { fx with sd := 5, sub := 2 }, .evpost fx]

theorem issues_class0 : ∀ i ∈ class0, Issues i (guardOfWord i) warp := by unfold Issues; decide +kernel
theorem issues_class1 : ∀ i ∈ class1, Issues i (guardOfWord i) warp := by unfold Issues; decide +kernel
theorem issues_class2 : ∀ c ∈ [0, 1, 2, 3, 4, 6, 8, 10], ∀ i ∈ class2 c, Issues i (guardOfWord i) (withV c 0 warp) := by
  unfold Issues; decide +kernel
theorem issues_class6 : ∀ i ∈ class6 ++ class7 ++ class8 ++ class9, Issues i (guardOfWord i) (withV 1 0 warp) := by
  unfold Issues; decide +kernel
theorem issues_classA : ∀ i ∈ classA, Issues i (guardOfWord i) bowl := by unfold Issues; decide +kernel
theorem issues_classC : ∀ i ∈ classC, Issues i (guardOfWord i) inTrap := by unfold Issues; decide +kernel
/-- The lists above hold one instruction of every row of the opcode table that has an encoding, and NOP. -/
theorem test_every_row_issues :
    ∀ r ∈ opTable, ∃ i ∈ class0 ++ class1 ++ class2 0 ++ class2 1 ++ class2 2 ++ class2 3 ++ class2 4 ++ class2 6 ++ class2 8
      ++ class2 10 ++ class6 ++ class7 ++ class8 ++ class9 ++ classA ++ classC, (encode i).any (fun w => w.toNat / 2 ^ 86 == r.code) = true := by
  decide +kernel

/-! ### Words and their instructions -/

/-- R48 to R56, worked examples of the spec and words written from their fields. -/
theorem test_decode_saddi : decodeTableWord 96 0x010014280000000000000080 = some (.saddi { si with sa := 5, imm := 1 }) := by decide +kernel
theorem test_decode_nop : decodeTableWord 96 0 = some .nop := by decide +kernel
theorem test_decode_park : decodeTableWord 96 0x120004000000000300200000 = some (.park { fb with slot := 1, disp := 3, pa := 2 }) := by
  decide +kernel
/-- VADD.i32 V4, V5, V6: CLASS 2, FN 4, Vd 4, Va 5, Vb 6, TY 1. -/
theorem test_decode_vadd :
    decodeTableWord 96 (2 * 2 ^ 92 + 4 * 2 ^ 86 + 4 * 2 ^ 71 + 5 * 2 ^ 61 + 6 * 2 ^ 51 + 1 * 2 ^ 34)
      = some (.vadd { v3 with va := 5, vb := 6, ty := 1 }) := by decide +kernel
/-- VMOVI.f32 V4, 0x3F800000: CLASS 2, FN 1, Vd 4, TY 3, IMM32. -/
theorem test_decode_vmovi :
    decodeTableWord 96 (2 * 2 ^ 92 + 1 * 2 ^ 86 + 4 * 2 ^ 71 + 3 * 2 ^ 56 + 0x3F800000 * 2 ^ 9)
      = some (.vmovi { v2 with ty := 3, imm := 0x3F800000 }) := by decide +kernel
/-- FFMS.f32.rup V4, V5, V6, V7: CLASS 3, FN 4, TY 3, RM 2. -/
theorem test_decode_ffms :
    decodeTableWord 96 (3 * 2 ^ 92 + 4 * 2 ^ 86 + 4 * 2 ^ 71 + 5 * 2 ^ 61 + 6 * 2 ^ 51 + 7 * 2 ^ 41 + 3 * 2 ^ 34 + 2 * 2 ^ 31)
      = some (.ffms { v3 with va := 5, vb := 6, vc := 7, ty := 3, rm := 2 }) := by decide +kernel
/-- CVT.bf16x2 V4, V5, f32, 1: CLASS 4, FN 0, TY 4, SUB = 3 with h = 1. -/
theorem test_decode_cvt :
    decodeTableWord 96 (4 * 2 ^ 92 + 4 * 2 ^ 71 + 5 * 2 ^ 61 + 4 * 2 ^ 34 + 0x13 * 2 ^ 23)
      = some (.cvt { v3 with va := 5, ty := 4, sub := 0x13 }) := by decide +kernel
theorem test_decode_vcmx : decodeTableWord 96 0x52C001004000000818000000
    = some (.vcmx { v3 with vd := 2, va := 2, ty := 2, sub := 0x30 }) := by decide +kernel
theorem test_decode_vst : decodeTableWord 96 0x60C0010A0001840000001000
    = some (.vst { fm with d := 2, sa := 10, ty := 3, sc := .clus, off := 0x400 }) := by decide +kernel
theorem test_decode_satom : decodeTableWord 96 0x700000070080006210000000
    = some (.satom { fa with d := 0, sa := 7, x := 2, ty := 3, sc := .die, aop := 1 }) := by decide +kernel
theorem test_decode_waita : decodeTableWord 96 0x718004060380006E00000000
    = some (.waita { fa with d := 8, sa := 6, x := 14, ty := 3, ord := .acq, sc := .sys }) := by decide +kernel
theorem test_decode_drainst : decodeTableWord 96 0x808000000000000000000000 = some (.drainst fx) := by decide +kernel
/-- FENCE.die r|w, r: CLASS 8, FN 0, SUB 2, IMM24 = 3 + 1 × 64. -/
theorem test_decode_fence :
    decodeTableWord 96 (8 * 2 ^ 92 + (3 + 64) * 2 ^ 34 + 2 * 2 ^ 26) = some (.fence { fx with sub := 2, imm := 67 }) := by decide +kernel
theorem test_decode_cpy : decodeTableWord 96 0x900000300BC0800350000080
    = some (.cpy { fa with d := 0, sa := 48, x := 47, y := 8, sc := .stack, aop := 5, off := 8 }) := by decide +kernel
theorem test_decode_mmag : decodeTableWord 96 0xA18000120070000000000000 = some (.mmag { fmx with sa := 9, sc := 14 }) := by decide +kernel
theorem test_decode_wgend : decodeTableWord 96 0xC14000000000000004000000 = some (.wgend { fx with sub := 1 }) := by decide +kernel
theorem test_decode_trap : decodeTableWord 96 0xC00000000000008400000000 = some (.trap { fx with imm := 0x21 }) := by decide +kernel

/-! ### Ill-formed terms that WellFormed refuses -/

/-- One term for each kind of check: a reserved field, an operand field that the form leaves zero, a register beyond its file, a
type and a rounding that the form does not take, a scope, an ordering, a sub-operation, an immediate, and a range of registers. -/
theorem test_ill_formed_refused :
    ∀ i ∈ [Instr.smov { s3 with sb := 1 }, .smulh { s3 with st := .n64 }, .scmp { s3 with sd := 0, sub := 6 }, .smoviHi { si with sub := 1, imm := 0x10000 },
      .srr { si with imm := 0x100 }, .br { fb with sa := 1 }, .br { fb with slot := 5 }, .bar { fx with imm := 17 }, .bar { fx with sub := 7 },
      .vadd { v3 with ty := 3 }, .vadd { v3 with ty := 1, rm := 1 }, .vadd { v3 with ty := 1, bs := true, vb := 128 }, .vadd { v3 with ty := 1, pp := 1 },
      .vbfx { v2 with ty := 1, imm := 0x800 }, .vtag { v2 with imm := 0xB00 }, .cvt { v3 with ty := 3, sub := 3 }, .vcmx { v3 with ty := 2, sub := 5 },
      .vote { v3 with sub := 0 }, .sld { fm with d := 128 }, .sld { fm with ord := .rel }, .lld { fm with sc := .die }, .spush { fm with d := 0 },
      .spush { fm with d := 127, sub := 1 }, .vsct { fm with sub := 8 }, .satom { fa with aop := 7 }, .vatom { fa with ty := 3 },
      .tkreq { fa with sc := .core }, .fence { fx with imm := 0x1000 }, .pref { fm with sub := 3 }, .poolcmp { fa with sc := .sys, ord := .rel },
      .mopa { fmx with mf := 4 }, .mprogSet fmx, .trap { fx with imm := 0x100 }, .sfqpop { fx with sd := 125 }], i.wellFormed = false := by
  decide +kernel

/-! ### One step each -/

/-- The next state of an outcome. -/
def after (o : Out) : State :=
  match o with
  | .next t => t
  | _ => State.reset
def sreg (n : Nat) (o : Out) : Dword := (after o).cur.r.getS n
def vlane (n l : Nat) (o : Out) : Word := ((after o).cur.r.getV n).lane l
/-- S6 and S7 set. -/
def with67 (a b : Dword) : State := withR warp (fun r => (r.setS 6 a).setS 7 b)

/-- R97: the sum wraps at 8 bits and is extended by its sign. -/
theorem test_sadd_wraps : sreg 5 (exec (.sadd { s3 with st := .i8 }) (with67 0x7F 1)) = 0xFFFFFFFFFFFFFF80 := by decide +kernel
/-- R99: division by zero, and a remainder of the dividend's sign. -/
theorem test_sdiv_by_zero : sreg 5 (exec (.sdiv s3) (with67 7 0)) = 0xFFFFFFFFFFFFFFFF := by decide +kernel
theorem test_srem_sign : sreg 5 (exec (.srem s3) (with67 (-7) 2)) = -1 := by decide +kernel
/-- R98: a shift by the width gives 0. -/
theorem test_sshl_width : sreg 5 (exec (.sshl { s3 with st := .n32 }) (with67 1 32)) = 0 := by decide +kernel
/-- R10: a write to S0 is discarded, and the instruction counts as issued. -/
theorem test_s0_discards : sreg 0 (exec (.saddi { si with sd := 0, imm := 3 }) warp) = 0
    ∧ (after (exec (.saddi { si with sd := 0, imm := 3 }) warp)).cur.c.issued = 1 := by decide +kernel
/-- R19, the worked example: package 3 of a pod of 8, core 409, wave slot 8. -/
theorem test_plc : plcOf { warp with podn := 7, pkg := 3 } { warp.cur with pl := { warp.cur.pl with core := 409, slot := 8 } }
    = 0x0000007300CCA000 := by decide +kernel
/-- R113: 1.0 + 1.0 in F32 is 2.0, with no flag. -/
theorem test_fadd : vlane 4 31 (exec (.fadd { v3 with ty := 3 }) (withV 3 0x3F800000 warp)) = 0x40000000
    ∧ (after (exec (.fadd { v3 with ty := 3 }) (withV 3 0x3F800000 warp))).cur.y.flg = 0 := by decide +kernel
/-- R8, R37: an unselected lane keeps its bits. -/
theorem test_vadd_masked :
    let s := (withV 1 5 warp).mapRegs (fun r => r.setP 1 0xFFFFFFFE)
    vlane 4 0 (exec (.vadd { v3 with g := { gp := 1, gs := false }, ty := 1 }) s) = 0
      ∧ vlane 4 1 (exec (.vadd { v3 with g := { gp := 1, gs := false }, ty := 1 }) s) = 10 := by decide +kernel
/-- R90: a POISON source raises class 11. -/
theorem test_poison_traps : (after (exec (.vadd { v3 with ty := 1 }) (withV 15 0 warp))).cur.t.side.cls = 11 := by decide +kernel
/-- R133, the worked example: the first key step of the bitonic sort. -/
theorem test_vcmx_step :
    let keys : Vector Word 32 := Vector.ofFn (fun l => BitVec.ofNat 32 (([5, 1, 7, 3, 8, 2, 6, 4] : List Nat).getD l 0))
    let s := (warp.mapRegs (fun r => r.writeV 1 keys 0x200)).mapCtl (fun c => { c with em := 0xFF })
    (List.range 8).map (fun l => vlane 1 l (exec (.vcmx { v3 with vd := 1, va := 1, ty := 2, sub := 0x08 }) s)) = [1, 5, 7, 3, 2, 8, 6, 4] := by
  decide +kernel
/-- R127: ballot gives the lanes of the predicate within the mask. -/
theorem test_vote : (after (exec (.vote { v3 with vd := 0, va := 1, pp := 2, sub := 2 })
    ((warp.mapRegs (fun r => r.setP 1 0xF0)).mapCtl (fun c => { c with em := 0x3C })))).cur.r.getP 2 = 0x30 := by decide +kernel
/-- R81, the worked example: an L8 and an L16 product. -/
theorem test_l_products : stepSum L8 [(ldecode L8 0x59, ldecode L8 0x45)] = (0x406AC100, 0)
    ∧ stepSum L16 [(ldecode L16 0x4400, ldecode L16 0x4001)] = (0x3FB514A3, 0) := by decide +kernel
/-- R153, the worked example: one element over two K-steps. -/
theorem test_dot_two_steps :
    let a := [0x7F, 0x40, 0x40] ++ List.replicate 29 0 ++ [0x41] ++ List.replicate 31 0
    let b := [0x7F, 0x40, 0x40] ++ List.replicate 29 0 ++ [0x40] ++ List.replicate 31 0
    dotElem L8 32 0 (a.map (ldecode L8)) (b.map (ldecode L8)) = (0x4B800002, fIX) := by decide +kernel
/-- R295, R301: parking every lane goes to the join. -/
theorem test_park_all : let t := after (exec (.park { fb with disp := 3, slot := 1 }) warp)
    t.cur.c.pc = 0xC1 ∧ t.cur.c.em = 0xFFFFFFFF ∧ t.cur.c.joins = [] := by decide +kernel
/-- R299: LOOP writes its count back and leaves at 0. -/
theorem test_loop_ends : let t := after (exec (.loop { fb with sa := 6, disp := 1 }) (with67 1 0))
    t.cur.c.pc = 1 ∧ t.cur.r.getS 6 = 0 := by decide +kernel
/-- R330, R354: TRAP 0x21 enters its handler, 256 bytes a class. -/
theorem test_trap : let t := after (exec (.trap { fx with imm := 0x21 }) warp)
    t.cur.c.pc = 0xC00 ∧ t.cur.c.priv = true ∧ getBits t.cur.t.tstat 0 12 = 0x21C ∧ t.cur.t.tpc = 1 := by decide +kernel
/-- R355: RFT returns to TPC at the privilege that TSTAT keeps. -/
theorem test_rft : let s := { inTrap with cur := { inTrap.cur with t := { inTrap.cur.t with tpc := 0x42 } } }
    let t := after (exec (.rft fx) s)
    t.cur.c.pc = 0x42 ∧ t.cur.c.priv = false ∧ tsInh t.cur.t.tstat = false := by decide +kernel
/-- R58: a supervisor form at user privilege is ILLEGAL with reason 5. -/
theorem test_privilege : let t := after (exec (.wgend fx) warp)
    getBits t.cur.t.tstat 0 12 = 0x050 := by decide +kernel
/-- R206: a scratchpad store is read back by a load of the same bytes. -/
theorem test_lst : let t := after (exec (.lst { fm with d := 6, sa := 7, ty := 3, sub := 8 }) (with67 0x11223344 0x40))
    memRead (t.group 0).scratch 0x40 4 = [0x44, 0x33, 0x22, 0x11] := by decide +kernel
/-- R146, the worked example: the handle of token 12 of core 0, wave slot 9, priority 2. -/
theorem test_handle : handleOf { bowl with harts := [{ Hart.idle with id := 3, live := true, pl := { Place.zero with slot := 9 } }] } 0
    { Entry.zero with st := .posted, pri := 2, tok := 12, hart := 3 } = 0x8000000004312000 := by decide +kernel
/-- R280, the worked example, steps 3 and 4: the marker takes SEQ 59 and the COMPLETE SEQ 60. -/
theorem test_ring :
    let fe : FrontEnd := { FrontEnd.zero with
      evcfg := 4, evprod := 56, evcons := 42, nextSeq := 59, run := 3, evovf := 0x8000000300000038
      raised := [{ at_ := 0, hart := none,
                   e := { type := 0, queue := 1, node := 0xFFFF, kseq := 0, code := 0, handle := 0, detail := 0 } }] }
    let t := after (exec .eventArbitration { warp with fe := fe, clock := 1 })
    t.fe.evprod = 58 ∧ t.fe.nextSeq = 61 ∧ getBits t.fe.evovf 32 31 = 3 ∧ memNat t.hostMem (32 * 8) 4 = 59
      ∧ memNat t.hostMem (32 * 8 + 12) 4 = 3 ∧ memNat t.hostMem (32 * 8 + 24) 8 = 56 ∧ memNat t.hostMem (32 * 9) 4 = 60 := by
  decide +kernel
/-- R28 to R36: the word that withFetchWord places is the one that the next step runs. -/
theorem test_first_step : sreg 5 (step (State.reset.withFetchWord 96 0x010014280000000000000080)) = 1 := by decide +kernel

/-! ### For each statement, a state and operands that meet its hypotheses, clause by clause -/

theorem witness_EncodeThenDecode :
    encode (.saddi { si with sa := 5, imm := 1 }) = some 0x010014280000000000000080#96
      ∧ Instr.wellFormed (.saddi { si with sa := 5, imm := 1 }) = true := by decide +kernel
theorem witness_DecodeThenEncode : decode 0x120004000000000300200000#96 = .ok (.park { fb with slot := 1, disp := 3, pa := 2 }) := by
  decide +kernel
/-- A reserved class, a nonzero word of class 0 and FN 0, and a function code with no row. -/
theorem witness_WordsRejected :
    classOf 0xB00000000000000000000000#96 ∈ [0xB#4, 0xD#4, 0xE#4, 0xF#4] ∧ (1#96 ≠ 0 ∧ (1#96).extractLsb' 86 10 = 0)
      ∧ (let w := 0x0FC000000000000000000000#96
         classOf w ∉ [0xB#4, 0xD#4, 0xE#4, 0xF#4] ∧ w.extractLsb' 86 10 ≠ 0
          ∧ ∀ r ∈ opTable, r.code ≠ (w.extractLsb' 86 10).toNat) := by decide +kernel

/-- A picked warp at slot 0 of a line that its die holds. -/
def atLine (l : BitVec 512) (user : Bool) : State :=
  { warp with
    picked := true
    dies := [(0, { Die.zero with icache := [{ asid := 0, addr := 0, data := l, user := user, held := [] }] })] }
/-- What the statements about a step ask of the picked stream. -/
def Picked (s : State) (l : BitVec 512) : Prop :=
  s.agenda = [] ∧ s.powered = true ∧ s.picked = true ∧ s.resident s.cur = true ∧ haltedHere s.cur = false
    ∧ s.cur.c.arrivedBar = false ∧ s.cur.c.arrivedGang = false ∧ s.cur.c.napEnd = none ∧ s.cur.role = .warp
    ∧ (s.cur.c.wait = none → s.boundaryTrap = none) ∧ settled s.cur = true ∧ (s.lineOf s.cur).map (fun x => x.data) = some l
def yieldWord : BitVec 96 := 0x140000000000000000000000
/-- VMOV V4, V0 and VMOV V5, V0 in slots 0 and 1. -/
def pairWords : List (BitVec 96) :=
  [(encode (.vmov v3)).getD 0, (encode (.vmov { v3 with vd := 5 })).getD 0, yieldWord, yieldWord, yieldWord]

/-- A line that fails its parity check in the cache, with memory that holds line `m` there. -/
def unsound (m : BitVec 512) : State :=
  { atLine (mkLine (List.replicate 5 yieldWord) 0 0 ^^^ 1) true with
    mem := memWrite [] (hbmKey 0) (leBytes 64 m.toNat)
    tlb := [{ stack := 0, asid := 0, glob := false, base := 0, size := 65536, leaf := 0x13 }] }
/-- A word of the die's that is being resolved. -/
def unresolved (s : State) : State :=
  { s with dies := [(0, { s.die 0 with spans := [{ pw := hbmWord 0, words := 32, lost := true, poison := true }] })] }
/-- Parity failures: a page that refuses the second fetch, a second failure, a sound line, and a fetch that waits; an address
without a slot of its line; and a stream that may still issue one instruction at a pair. -/
theorem witness_FetchChecks_parity :
    (let l := mkLine (List.replicate 5 yieldWord) 0 0
     let s := unsound l
     Picked s (l ^^^ 1) ∧ lineParityOk (l ^^^ 1) = false ∧ s.fetchWaits 0 0 0 = []
      ∧ (match (s.fetchLine 0 0 0).1 with
        | .ok x => lineParityOk x.data && !lineMalformed x.data && !restNop x.data 0 && (linePairs x.data).isEmpty
            && (decode (slotWord x.data 0)).isOk
        | .error _ => false) = true
      ∧ (match ((unsound (l ^^^ 1)).fetchLine 0 0 0).1 with
        | .ok x => !lineParityOk x.data
        | .error _ => false) = true
      ∧ ({ s with tlb := [] }.fetchLine 0 0 0).1.isOk = false ∧ (unresolved s).fetchWaits 0 0 0 ≠ [])
    ∧ (slotOf 5 = 5 ∧ pcOk 5 = false)
    ∧ (let s := { atLine (mkLine pairWords 0 1) true with cur := { warp.cur with sch := { warp.cur.sch with skid := some 1 } } }
       Picked s (mkLine pairWords 0 1) ∧ s.cur.sch.skid = some 1) := by
  unfold Picked; refine ⟨?_, ?_, ?_⟩ <;> decide +kernel
theorem witness_StepRunsTheDecodedInstruction :
    let l := mkLine (List.replicate 5 yieldWord) 1 0
    let s := { atLine l true with cur := { warp.cur with c := { warp.cur.c with arriving := true } } }
    Picked s l ∧ lineParityOk l = true ∧ lineMalformed l = false ∧ pcOk s.cur.c.pc = true ∧ lineTgt l (slotOf s.cur.c.pc) = true
      ∧ restNop l (slotOf s.cur.c.pc) = false ∧ slotOf s.cur.c.pc ∉ linePairs l
      ∧ decode (slotWord l (slotOf s.cur.c.pc)) = .ok (.yield fx) := by
  unfold Picked; decide +kernel
/-- An unreadable page; a malformed line; a target that is not marked; a tail of NOPs; a pair; a word that is no instruction. -/
theorem witness_FetchChecks :
    (let l := mkLine (List.replicate 5 yieldWord) 0 0
     Picked (atLine l false) l)
    ∧ (let l := mkLine (List.replicate 5 yieldWord) 2 1
       Picked (atLine l true) l ∧ lineParityOk l = true ∧ lineMalformed l = true)
    ∧ (let l := mkLine (List.replicate 5 yieldWord) 0 0
       let s := { atLine l true with cur := { warp.cur with c := { warp.cur.c with arriving := true } } }
       Picked s l ∧ lineParityOk l = true ∧ lineMalformed l = false ∧ lineTgt l 0 = false)
    ∧ (let l := mkLine [0] 0 0
       Picked (atLine l true) l ∧ lineParityOk l = true ∧ lineMalformed l = false ∧ pcOk 0 = true ∧ restNop l 0 = true)
    ∧ (let l := mkLine pairWords 0 1
       Picked (atLine l true) l ∧ lineParityOk l = true ∧ lineMalformed l = false ∧ restNop l 0 = false ∧ 0 ∈ linePairs l)
    ∧ (let l := mkLine [1, yieldWord, yieldWord, yieldWord, yieldWord] 0 0
       Picked (atLine l true) l ∧ lineParityOk l = true ∧ lineMalformed l = false ∧ restNop l 0 = false ∧ 0 ∉ linePairs l
        ∧ decode (slotWord l 0) = .error .reservedBits) := by
  unfold Picked; refine ⟨?_, ?_, ?_, ?_, ?_, ?_⟩ <;> decide +kernel
/-- The canonical memories and the numbers of streams at reset, and a step from there. -/
theorem witness_MemoryStaysCanonical : warp.memoryWf ∧ ∃ t, step { warp with agenda := [.readyUp] } = .next t :=
  ⟨by unfold State.memoryWf; decide +kernel, _, rfl⟩
theorem witness_StreamsStayDistinct : warp.streamsDistinct ∧ ∃ t, step { warp with agenda := [.readyUp] } = .next t :=
  ⟨by unfold State.streamsDistinct; decide +kernel, _, rfl⟩
/-- Bytes written at address 0 of an empty memory and beside a listed byte. -/
theorem witness_MemoryReadsBack : memWf [] = true ∧ memWf (memWrite [] 3 [7]) = true := by decide +kernel
/-- R37: no lane selected. R58: an illegal form. R40: an empty source, in trap mode and not. R89: a tag of the wrong format
behind one that is accepted, and poison. -/
theorem witness_IssueChecks :
    (illegal (.vadd { v3 with ty := 1 }) warp = none ∧ laneMask { warp.cur with c := { warp.cur.c with em := 0 } } g0 = 0)
    ∧ (illegal (.wgend fx) warp = some 5 ∧ settled warp.cur = true ∧ (encode (.wgend fx)).isSome = true)
    ∧ (let s := withR warp (fun r => { r with s := r.s, sfull := vset r.sfull 6 false })
       illegal (.sadd s3) s = none ∧ loadWait (.sadd s3) s.cur = false ∧ laneMask s.cur g0 ≠ 0
        ∧ emptyTrap (uses (.sadd s3)) s.cur.r = false ∧ emptyWait (uses (.sadd s3)) s.cur.r = true
        ∧ emptyTrap (uses (.sadd { s3 with ma := true })) s.cur.r = true ∧ illegal (.sadd { s3 with ma := true }) s = none)
    ∧ (let i : Instr := .vadd { v3 with va := 3, ty := 1 }
       let s := withV 3 0 warp
       Issues (.vmov v3) g0 s ∧ illegal i s = none ∧ loadWait i s.cur = false ∧ laneMask s.cur g0 ≠ 0 ∧ s.cur.r.sbad = []
        ∧ emptyTrap (uses i) s.cur.r = false ∧ emptyWait (uses i) s.cur.r = false ∧ settled s.cur = true
        ∧ (∃ x y, (uses i).vs = [x, y] ∧ x.need = some [1] ∧ y.need = some [1] ∧ tagCode (s.cur.r.getV x.r).tag = 1
          ∧ tagCode (s.cur.r.getV y.r).tag = 3)
        ∧ tagCode ((withV 15 0 warp).cur.r.getV 0).tag = 15) := by
  refine ⟨by decide +kernel, by decide +kernel, by decide +kernel, by unfold Issues; decide +kernel, ?_⟩
  refine ⟨by decide +kernel, by decide +kernel, by decide +kernel, by decide +kernel, by decide +kernel, by decide +kernel,
    by decide +kernel, ⟨_, _, rfl, ?_⟩, by decide +kernel⟩
  decide +kernel
/-- R58: each privilege check meets a well-formed instruction whose registers lie within the grant. -/
theorem witness_PrivilegeChecked :
    (∀ i ∈ [Instr.wgend fx, .rft fx, .srr { si with imm := 0x020 }, .srw { si with sd := 0, imm := 0x047 }, .mtake fmx],
      (encode i).isSome = true ∧ i.wellFormed = true ∧ (uses i).vs.map (fun x => x.r) = [] ∧ (uses i).vd = [])
    ∧ warp.cur.role = .warp ∧ warp.cur.c.priv = false ∧ tsInh warp.cur.t.tstat = false
    ∧ (encode (.wgend fx)).any (fun w => w.toNat / 2 ^ 92 = 12 && decide (2 ≤ w.toNat / 2 ^ 86 % 64)) = true
    ∧ (encode (.mtake fmx)).any (fun w => w.toNat / 2 ^ 92 = 10) = true
    ∧ bowl.cur.role = .bowler ∧ illegal (.wgend fx) bowl = some 5 ∧ (encode (.sadd { s3 with g := { gp := 1, gs := false } })).any
        (fun w => guardOf w != { gp := 0, gs := false }) = true := by decide +kernel

/-! Class 0x0. That each instruction issues is test `issues_class0`; here are the operands that single out a clause. -/

/-- R99: division by zero at each width, and the most negative value divided by minus one. -/
theorem witness_ScalarDivision :
    (∀ st ∈ [STy.i8, .i16, .i32, .i64], Issues (.sdiv { s3 with st := st }) g0 (with67 7 0) ∧ stLow st ((with67 7 0).cur.r.getS 7) = 0)
    ∧ (∀ st ∈ [STy.i8, .i16, .i32, .i64], let s := with67 (-(2 ^ (stWidth st - 1))) (-1)
        Issues (.sdiv { s3 with st := st }) g0 s ∧ Issues (.srem { s3 with st := st }) g0 s
          ∧ stLow st (s.cur.r.getS 6) = BitVec.intMin (stWidth st) ∧ stLow st (s.cur.r.getS 7) = -1) := by
  unfold Issues; decide +kernel
/-- R100: SBOOL that writes a scalar register, and one that writes a boolean. -/
theorem witness_ScalarSelection :
    Issues (.sbool { s3 with sa := 0, sb := 0, sub := 5 }) g0 warp ∧ Issues (.sbool { s3 with sd := 0, sa := 0, sb := 0, sub := 7 }) g0 warp := by
  unfold Issues; decide +kernel
/-- R101: fields of length 0, and fields that reach past bit 63. -/
theorem witness_ScalarBitFields :
    ∀ i ∈ [Instr.sbfx si, .sbfx { si with imm := 0x1000 }, .sbfx { si with imm := 0x7F }, .sbfx { si with imm := 0x103F }, .sbfi si,
      .sbfi { si with imm := 0x1000 }, .sbfi { si with imm := 0x7F }, .sbfi { si with imm := 0x103F }], Issues i g0 warp := by
  unfold Issues; decide +kernel
theorem witness_ScalarArithmetic : Issues (.slea { s3 with sub := 7 }) g0 warp ∧ Issues (.smulh s3) g0 warp
    ∧ Issues (.smulhn { s3 with st := .n8 }) g0 warp := by unfold Issues; decide +kernel
theorem witness_ScalarLogicAndShifts : Issues (.sshl { s3 with st := .i8 }) g0 (with67 1 8) ∧ Issues (.ssra s3) g0 (with67 (-1) 64) := by
  unfold Issues; decide +kernel

/-! Traps. -/

/-- A warp whose workgroup another warp halted. -/
def haltedWarp : State := { warp with groups := [(0, { warp.group 0 with halt := some 9 })] }
/-- R330: a first trap; one inside a handler; one while the workgroup is halted by another warp. -/
theorem witness_TrapEntry :
    (warp.cur.role = .warp ∧ tsInh warp.cur.t.tstat = false ∧ (warp.group warp.cur.pl.group).halt = none)
    ∧ (inTrap.cur.role = .warp ∧ tsInh inTrap.cur.t.tstat = true)
    ∧ (haltedWarp.cur.role = .warp ∧ tsInh haltedWarp.cur.t.tstat = false ∧ (haltedWarp.group 0).halt ≠ none) := by decide +kernel
/-- R319, R333: a trap while its workgroup is being saved, and one that takes the lead from wave slot 1 in the same clock. -/
theorem witness_TrapEntry_pending :
    (warp.departing = false ∧ inTrap.departing = false
      ∧ { warp with groups := [(0, { warp.group 0 with phase := .saving })] }.departing = true)
    ∧ (let u : Undo := { tpc := 0, tstat := 0, pc := 0x40, priv := false, replay := none, clock := 0, issued := 0 }
       let lead : Hart := { warp.cur with id := 2, pl := { warp.cur.pl with slot := 1 }, t := { warp.cur.t with tstat := 0xC0000, undo := some u } }
       let s := { warp with harts := [lead], groups := [(0, { warp.group 0 with halt := some 2 })] }
       s.departing = false ∧ (s.displaced).map (fun x => x.1.id) = some 2 ∧ haltedWarp.displaced = none) := by
  refine ⟨?_, ?_⟩ <;> decide +kernel
/-- R355: RFT in the handler of the warp that leads the halt, and in one whose halt another leads. -/
theorem witness_SoftwareTrapsAndReturn :
    (Issues (.trap { fx with imm := 0xFF }) g0 warp ∧ Issues (.brk fx) g0 warp ∧ tsInh warp.cur.t.tstat = false
      ∧ (warp.group 0).halt = none)
    ∧ (let s := { inTrap with groups := [(0, { warp.group 0 with halt := some 1 })] }
       Issues (.rft fx) g0 s ∧ s.cur.role = .warp ∧ (s.group s.cur.pl.group).halt = some s.cur.id)
    ∧ Issues (.rft { fx with sub := 1 }) g0 inTrap ∧ (inTrap.group 0).halt ≠ some inTrap.cur.id := by
  unfold Issues; decide +kernel

/-! Class 0x1. -/

/-- The outcome is a next state. -/
def goes (o : Out) : Bool :=
  match o with
  | .next _ => true
  | _ => false
/-- The warp with a stack of 2 KiB below 0x1000 and P1 set. -/
def stacked (sp : Dword) (p1 : Word) : State :=
  { withR warp (fun r => r.setP 1 p1) with cur := { (withR warp (fun r => r.setP 1 p1)).cur with y := { warp.cur.y with sptr := sp, slim := 0x800 } } }
/-- The warp with its lowest 64 KiB mapped to HBM, writable by users. -/
def mapped : State :=
  { warp with tlb := [{ stack := 0, asid := 0, glob := false, base := 0, size := 65536, leaf := 0x13 }] }
def joined (js : List Join) (p1 : Word) : State :=
  (withR warp (fun r => r.setP 1 p1)).mapCtl (fun c => { c with joins := js })

theorem witness_Branches :
    Issues (.brc fb) g0 warp ∧ (warp.cur.r.getB 0 ^^ fb.bn) = false ∧ Issues (.brc { fb with bn := true }) g0 warp
      ∧ Issues (.loop { fb with sa := 6 }) g0 (with67 1 0)
      ∧ (Issues (.brany { fb with pa := 1 }) g0 warp ∧ warp.cur.r.getP 1 &&& laneMask warp.cur g0 = 0) ∧ laneMask warp.cur g0 ≠ 0
      ∧ bowl.cur.role = .bowler ∧ Instr.wellFormed (.brany fb) = true ∧ Instr.wellFormed (.brall fb) = true := by
  unfold Issues; decide +kernel
/-- R300: a call with room, one at the limit of SLIM, a Bowler's with room and without; returns of a warp and of a Bowler. -/
theorem witness_Calls :
    (Issues (.call fb) g0 (stacked 0x808 0) ∧ pushRefused (stacked 0x808 0).cur 8 8 [{ lane := 0, ea := 0x800, data := leBytes 8 0x40 }] = none)
    ∧ (Issues (.call fb) g0 (stacked 0x800 0) ∧ (stacked 0x800 0).cur.y.sptr.toNat % 8 = 0
        ∧ (stacked 0x800 0).cur.y.sptr.toInt - 8 < slimLimit (stacked 0x800 0).cur.y.slim)
    ∧ (Issues (.call fb) g0 bowl ∧ bowl.cur.bow.rstack.length < 8)
    ∧ (Issues (.call fb) g0 { bowl with cur := { bowl.cur with bow := { bowl.cur.bow with rstack := List.replicate 8 0 } } })
    ∧ (Issues (.ret fb) g0 mapped ∧ coreCause (popChecks 8 8 mapped) = none
        ∧ (mapped.xlatWords {} mapped.cur.c.priv (wordsAt 0 8)).1.isOk = true)
    ∧ (Issues (.ret fb) g0 { bowl with cur := { bowl.cur with bow := { bowl.cur.bow with rstack := [0x40] } } })
    ∧ (Issues (.ret fb) g0 bowl ∧ bowl.cur.bow.rstack = []) := by
  unfold Issues; refine ⟨?_, ?_, ?_, ?_, ?_, ?_, ?_⟩ <;> decide +kernel
/-- The words and the value of the warp's RET. -/
theorem witness_Calls_ret : ∃ ws u x w, mapped.xlatWords {} mapped.cur.c.priv (wordsAt 0 8) = (.ok ws, u)
    ∧ u.readElem u.me 0 8 ws = ((x, false), w) := ⟨_, _, _, _, rfl, rfl⟩
/-- PARK that selects no lane, a first join, a join of its own, one too many, and every lane; JOIN at its address and
elsewhere; LEXIT of some lanes. -/
theorem witness_Divergence :
    let pk : FB := { fb with pa := 1 }
    let m := fun (s : State) => laneMask s.cur g0 &&& s.cur.r.getP 1
    (Issues (.park pk) g0 warp ∧ m warp = 0)
    ∧ (Issues (.park pk) g0 (joined [] 1) ∧ m (joined [] 1) ≠ 0 ∧ (joined [] 1).cur.c.em &&& ~~~ m (joined [] 1) ≠ 0)
    ∧ (Issues (.park pk) g0 (joined [{ addr := 0, mask := 0 }] 1))
    ∧ (let js := (List.range 16).map (fun k => ({ addr := BitVec.ofNat 64 (64 * k + 64), mask := 0 } : Join))
       Issues (.park pk) g0 (joined js 1) ∧ m (joined js 1) ≠ 0 ∧ (∀ j ∈ js, j.addr ≠ 0) ∧ 16 ≤ js.length)
    ∧ (Issues (.park fb) g0 warp ∧ warp.cur.c.em &&& ~~~ laneMask warp.cur g0 = 0 ∧ warp.cur.c.joins = [])
    ∧ (illegal (.join fx) (joined [{ addr := 0, mask := 2 }] 0) = none ∧ loadWait (.join fx) warp.cur = false
        ∧ (joined [{ addr := 0, mask := 2 }] 0).cur.c.pc = 0)
    ∧ (Issues (.lexit { fx with pa := 1 }) g0 (joined [] 1)) := by
  unfold Issues; refine ⟨?_, ?_, ?_, ?_, ?_, ?_, ?_⟩ <;> decide +kernel
theorem witness_LanesStayApart :
    warp.cur.c.replay = none ∧ warp.cur.c.joins = [] ∧ tsInh warp.cur.t.tstat = false ∧ goes (exec (.park fb) warp) = true
      ∧ goes (exec (.join fx) warp) = true ∧ goes (exec (.lexit { fx with pa := 1 }) (joined [] 1)) = true
      ∧ (joined [] 1).cur.c.em &&& ~~~ (laneMask (joined [] 1).cur g0 &&& (joined [] 1).cur.r.getP 1) ≠ 0 := by
  decide +kernel

/-! Classes 0x2 to 0x5. -/

theorem witness_VectorIntegers : ∀ t ∈ [(1 : Fin 16), 8, 10], Issues (.vadd { v3 with ty := ⟨t⟩ }) g0 (withV t 0 warp) := by
  unfold Issues; decide +kernel
/-- The codes of VTAGR: poison, an L format, another format, and a reserved code. -/
theorem witness_VectorLanes : ∀ x ∈ [(0xF00 : Dword), 0x6FF, 0x7FF, 0x5FF, 0x8FF, 0xAFF, 0xB00, 0xE00],
    Issues (.vtagrSet { v3 with vb := 6, sub := 1, bs := true }) g0 (with67 x 0) := by
  intro x hx; fin_cases hx <;> unfold Issues <;> decide +kernel
/-- LCMP of two registers of one scale. -/
theorem witness_Compares : Issues (.lcmp { v3 with vd := 0, pp := 1, ty := 6 }) g0 (withV 6 0 warp)
    ∧ tagScale ((withV 6 0 warp).cur.r.getV 0).tag = tagScale ((withV 6 0 warp).cur.r.getV 0).tag
    ∧ Issues (.fcmp { v3 with vd := 0, pp := 1, ty := 3, sub := 7 }) g0 (withV 3 0 warp) := by unfold Issues; decide +kernel
/-- Every instruction of classes 0x2 to 0x5 that writes a vector or a predicate meets the premises of its result; and a
division by zero with its flag enabled meets those of class 6. -/
theorem witness_VectorResults :
    (∀ c ∈ [0, 1, 2, 3, 4, 6, 8, 10], ∀ i ∈ class2 c, ((vecFn i).toList ++ (vecFn5 i).toList).all (fun x =>
        (x.2 (withV c 0 warp).cur).trap.isNone && !flgTraps (withV c 0 warp).cur.y.flg (x.2 (withV c 0 warp).cur).flags) = true)
    ∧ (let i : Instr := .fdiv { v3 with ty := 3, vb := 2 }
       let w := withV 3 0x3F800000 warp
       let s := { w with cur := { w.cur with y := { w.cur.y with flg := 0x1000 } } }
       Issues i g0 s ∧ (vecFn i).any (fun x => (x.2 s.cur).trap.isNone && ((s.cur.y.flg.extractLsb' 8 8) &&& (x.2 s.cur).flags) != 0) = true
        ∧ s.cur.role = .warp ∧ tsInh s.cur.t.tstat = false ∧ (s.group 0).halt = none) := by
  unfold Issues; refine ⟨?_, ?_⟩ <;> decide +kernel
/-- VWRL to a lane of the mask and to one outside it; both forms of PCOUNT. -/
theorem witness_LaneMoves :
    let s := (withV 0 0 warp).mapCtl (fun c => { c with em := 1 })
    (Issues (.vwrl { v3 with bs := true }) g0 s ∧ (laneMask s.cur g0).getLsbD 0 = true)
      ∧ (Issues (.vwrl { v3 with bs := true, sub := 31 }) g0 s ∧ (laneMask s.cur g0).getLsbD 31 = false)
      ∧ Issues (.pcount v3) g0 s ∧ Issues (.pcount { v3 with sub := 1 }) g0 s := by
  unfold Issues; decide +kernel
theorem witness_LaneMasks : ∀ k ∈ [0, 1, 2, 3], Issues (.vote { v3 with vd := 0, pp := 1, sub := BitVec.ofNat 8 k }) g0 (withV 0 0 warp) := by
  unfold Issues; decide +kernel
theorem witness_IntegerReductions :
    (∀ k ∈ [0, 1, 2, 3, 4, 5], Issues (.vred { v3 with ty := 1, sub := BitVec.ofNat 8 k }) g0 (withV 1 5 warp))
      ∧ ∀ k ∈ [0, 5, 8, 13], Issues (.vscan { v3 with ty := 1, sub := BitVec.ofNat 8 k }) g0 (withV 1 5 warp) := by
  unfold Issues; decide +kernel
/-- R133: the first and last pair distances, directions and orders, with a payload and without. -/
theorem witness_CompareExchange :
    (∀ k ∈ [0, 4, 0x28, 0x30, 0x34, 0x40, 0x74], Issues (.vcmx { v3 with ty := 2, sub := BitVec.ofNat 8 k }) g0 (withV 2 5 warp))
      ∧ Issues (.vcmx { v3 with ty := 3 }) g0 (withV 3 5 warp) := by unfold Issues; decide +kernel

/-! Floating point: no flag enabled, and operands of each kind. -/

/-- The kinds of F32 codes that the clauses speak of. -/
theorem witness_F32_kinds : F32.isNaN 0x7FC00000 ∧ ¬ F32.isNaN 0x7F800000 ∧ ¬ F32.isFinite 0x7F800000 ∧ F32.isFinite 0 ∧ F32.magnitude 0 = 0
    ∧ F32.negative 0xFF800000 ∧ ¬ F32.negative 0x7F800000 ∧ F32.isFinite 0x3F800000 ∧ F32.magnitude 0x3F800000 ≠ 0 := by
  unfold Fmt.isNaN Fmt.isFinite Fmt.negative Fmt.magnitude; norm_num [F32]
theorem witness_FloatSpecialValues :
    let s := withV 3 0x7F800000 warp
    getBits s.cur.y.flg 8 8 = 0 ∧ Issues (.fmul { v3 with ty := 3, va := 2, vb := 0 }) g0 s
      ∧ Issues (.fadd { v3 with ty := 3 }) g0 (withV 3 0x7FC00000 warp) ∧ Issues (.fsqrt { v3 with ty := 3 }) g0 (withV 3 0xFF800000 warp)
      ∧ Issues (.fdiv { v3 with ty := 3, va := 2, vb := 2 }) g0 s ∧ Issues (.fdiv { v3 with ty := 3, vb := 2 }) g0 (withV 3 0x3F800000 warp)
      ∧ Issues (.fmin { v3 with ty := 3, va := 0, vb := 2 }) g0 (withV 3 0x7FC00000 warp) := by
  unfold Issues; decide +kernel
/-- FCLASS of each kind of code, the other operands of the special values, and the inputs that R115 lists. -/
theorem witness_FloatSpecialValues_more :
    (Issues (.fclass { v3 with ty := 3 }) g0 (withV 3 0x7FC00000 warp) ∧ Issues (.fclass { v3 with ty := 3 }) g0 (withV 3 0xFF800000 warp)
      ∧ Issues (.fclass { v3 with ty := 3 }) g0 (withV 3 1 warp))
    ∧ (∀ i ∈ [Instr.fclass { v3 with ty := 3 }, .frcp { v3 with ty := 3 }, .frsq { v3 with ty := 3 }, .fexp2 { v3 with ty := 3 },
        .flog2 { v3 with ty := 3 }, .fsin { v3 with ty := 3 }, .fcos { v3 with ty := 3 }, .ftanh { v3 with ty := 3 }, .fsigm { v3 with ty := 3 },
        .fdiv { v3 with ty := 3, vb := 2 }, .ffma { v3 with ty := 3, vb := 2 }], Issues i g0 (withV 3 0x7F800000 warp)) := by
  unfold Issues; refine ⟨?_, ?_⟩ <;> decide +kernel
theorem witness_FloatSpecialValues_exact :
    F32.isFinite 0x40000000 ∧ |F32.value 0x40000000| = 2 ^ (1 : ℤ) ∧ F32.isFinite 0x3F000000 ∧ F32.value 0x3F000000 = 1 / F32.value 0x40000000
      ∧ F32.value 0x40800000 = 2 ^ (2 * 1 : ℤ) ∧ F32.value 0x40000000 = ((2 : ℤ) : ℚ) ∧ F32.value 0x40800000 = 2 ^ (2 : ℤ)
      ∧ (2 : ℚ) ^ (F32.eb - 1) ≤ F32.value 0x43000000 := by
  unfold Fmt.isFinite Fmt.value Fmt.magnitude; norm_num [F32]
/-- The largest finite value is a sum within the range, under each mode. -/
theorem witness_FloatRoundsCorrectly :
    (∀ k ∈ [0, 1, 2, 3], Issues (.fadd { v3 with ty := 3, vb := 2, rm := BitVec.ofNat 3 k }) g0 (withV 3 0x7F7FFFFF warp))
      ∧ F32.isFinite 0x7F7FFFFF ∧ |F32.value 0x7F7FFFFF + F32.value 0| ≤ F32.value F32.maxCode := by
  refine ⟨by unfold Issues; decide +kernel, by unfold Fmt.isFinite; norm_num [F32], ?_⟩
  unfold Fmt.value Fmt.magnitude Fmt.maxCode; norm_num [F32]
/-- A sum that overflows, a quotient within the range, a root, and elements for a special function that are not listed. -/
theorem witness_FloatRoundsCorrectly_more :
    ((2 : ℚ) ^ (2 ^ (F32.eb - 1)) ≤ |F32.value 0x7F7FFFFF + F32.value 0x7F7FFFFF|)
    ∧ (F32.value 0x40000000 ≠ 0 ∧ |F32.value 0x40400000 / F32.value 0x40000000| ≤ F32.value F32.maxCode ∧ 0 ≤ F32.value 0x40000000)
    ∧ (codeRat F32 0x3F000000 = some (8388608, 16777216) ∧ F32.value 0x3F000000 = 1 / 2 ∧ ¬ ∃ k : ℤ, (1 / 2 : ℚ) = k)
    ∧ (∃ n q, spTrue .exp2 8388608 16777216 = (n, q) ∧ |(n / q : ℚ)| ≤ F32.value F32.maxCode) := by
  refine ⟨?_, ?_, ⟨rfl, ?_, ?_⟩, _, _, rfl, ?_⟩
  · unfold Fmt.value Fmt.magnitude; norm_num [F32]
  · unfold Fmt.value Fmt.magnitude Fmt.maxCode; norm_num [F32]
  · unfold Fmt.value Fmt.magnitude; norm_num [F32]
  · rintro ⟨k, h⟩
    have h2 : (1 : ℚ) = ((2 * k : ℤ) : ℚ) := by push_cast; linarith
    have h3 : (1 : ℤ) = 2 * k := by exact_mod_cast h2
    omega
  · have h : (fxExp (fxMul (8388608 % (16777216 : ℤ) * fxOne / 16777216) fxLn2)).toNat * 2 ^ (8388608 / (16777216 : ℤ)).toNat
        = 1792728671193156477399422023268 := by decide +kernel
    rw [show ((16777216 : ℕ) : ℤ) = 16777216 from rfl, h]
    unfold Fmt.value Fmt.magnitude Fmt.maxCode; norm_num [F32]
theorem witness_FloatRoundsCorrectly_dot :
    Issues (.fdot2 { v3 with ty := 4, vc := 2 }) g0 (withV 4 0x3F803F80 warp) ∧ (∀ e ∈ [0, 1], F32.isFinite 0)
      ∧ Issues (.fsqrt { v3 with ty := 3 }) g0 (withV 3 0x40000000 warp) := by
  unfold Issues
  exact ⟨by decide +kernel, by intro e _; unfold Fmt.isFinite; norm_num [F32], by decide +kernel⟩
theorem witness_ConversionsAndLogForms :
    (∀ k ∈ [0, 1], Issues (.pack { v3 with ty := 8, sub := BitVec.ofNat 8 k }) g0 (withV 10 0x7FFF8000 warp)
      ∧ Issues (.unpack { v3 with ty := 1, sub := BitVec.ofNat 8 k }) g0 (withV 10 0x80008000 warp))
    ∧ Issues (.cvtf { v3 with ty := 1, sub := 1 }) g0 (withV 3 0 warp) ∧ Issues (.cvti { v3 with ty := 3, sub := 1 }) g0 (withV 1 0 warp)
    ∧ (Issues (.lscale { v3 with ty := 6, sub := 127 }) g0 (withV 6 0 warp) ∧ tagScale ((withV 6 0 warp).cur.r.getV 0).tag + 127 ≤ 127)
    ∧ (Issues (.lscale { v3 with ty := 6, sub := 128 }) g0 (withV 6 0 warp) ∧ -128 ≤ tagScale ((withV 6 0 warp).cur.r.getV 0).tag - 128)
    ∧ (∀ i ∈ [Instr.lmul { v3 with ty := 6 }, .ldiv { v3 with ty := 6 }, .lsqr { v3 with ty := 6 }, .lsqrt { v3 with ty := 6 }],
        Issues i g0 (withV 6 0x80818001 warp)) := by
  unfold Issues; refine ⟨?_, ?_, ?_, ?_, ?_, ?_⟩ <;> decide +kernel
/-- CVT between floating, L and integer formats and their values; L operands; LSCALE beyond the scales; LMAXS with and without an
element that counts. -/
theorem witness_ConversionsAndLogForms_more :
    (∀ k ∈ [(4 : BitVec 4), 5, 6, 7], Issues (.cvt { v3 with ty := k, sub := 3 }) g0 (withV 3 0x3F800000 warp))
    ∧ (∀ k ∈ [(3 : BitVec 4), 4, 5, 7], Issues (.cvt { v3 with ty := k, sub := 6 }) g0 (withV 6 0x00810001 warp))
    ∧ (∀ k ∈ [(1 : BitVec 4), 8, 9, 10], Issues (.cvti { v3 with ty := k, sub := 3 }) g0 (withV 3 0x3F800000 warp)
        ∧ Issues (.cvti { v3 with ty := k, sub := 6 }) g0 (withV 6 0x00810001 warp))
    ∧ (Issues (.cvt { v3 with ty := 6, sub := 7 }) g0 (withV 7 1 warp) ∧ Issues (.cvti { v3 with ty := 6, sub := 8 }) g0 (withV 8 1 warp))
    ∧ (Issues (.lsqrt { v3 with ty := 6 }) g0 (withV 6 0x00810001 warp)
      ∧ Issues (.lscale { v3 with ty := 6, bs := true, vb := 6 }) g0 ((withV 6 0x00810001 warp).mapRegs (fun r => r.setS 6 200))
      ∧ 0x81 % 2 ^ 15 ≠ 0 ∧ 127 < tagScale ((withV 6 0 warp).cur.r.getV 0).tag + (200 : Dword).toInt)
    ∧ (Issues (.lmaxs { v3 with ty := 6, sub := 3 }) g0 (withV 3 0 warp) ∧ Issues (.lmaxs { v3 with ty := 7, sub := 3 }) g0 (withV 3 0x3F800000 warp)) := by
  unfold Issues; refine ⟨?_, ?_, ?_, ?_, ?_, ?_⟩ <;> decide +kernel
theorem witness_ConversionsAndLogForms_values :
    HasValue 3 0 0x3F800000 1 ∧ HasValue 6 0 0 0 ∧ (∃ v : ℚ, HasValue 6 0 0x81 v) ∧ HasValue 1 0 7 7 ∧ F32.value 0x3F800000 ≠ 0 := by
  refine ⟨?_, ?_, ?_, ?_, ?_⟩
  · show F32.isFinite 0x3F800000 ∧ (1 : ℚ) = F32.value 0x3F800000
    unfold Fmt.isFinite Fmt.value Fmt.magnitude; norm_num [F32]
  · simp [HasValue, isLog]
  · exact ⟨_, Or.inr ⟨by decide, rfl⟩⟩
  · exact rfl
  · unfold Fmt.value Fmt.magnitude; norm_num [F32]
/-- R103, R104: each selector of SWID, and each register of SRR, SRW and their privileged forms. -/
theorem witness_SystemRegisters :
    (illegal .nop warp = none ∧ loadWait .nop warp.cur = false)
    ∧ (∀ k ∈ [0, 1, 5, 6], Issues (.swid { s3 with sa := 0, sb := 0, st := .n64, sub := BitVec.ofNat 8 k }) g0 warp)
    ∧ (warp.launch warp.cur.pl.launch).hdr.widths = [5]
    ∧ Issues (.srr { si with imm := 0x012 }) g0 bowl ∧ (∀ k ∈ [0x010, 0x011, 0x013, 0x014, 0x016, 0x017, 0x021], Issues (.srr { si with imm := BitVec.ofNat 48 k }) g0 warp)
    ∧ (∀ k ∈ [0x010, 0x011, 0x013, 0x014, 0x015, 0x016, 0x017, 0x018, 0x01A, 0x021, 0x038, 0x03A],
        Issues (.srw { si with sd := 0, imm := BitVec.ofNat 48 k }) g0 warp)
    ∧ (∀ k ∈ [0x020, 0x022, 0x040, 0x041, 0x042, 0x043, 0x044, 0x047],
        Issues (.srrp { fx with sd := 5, imm := BitVec.ofNat 24 k }) g0 inTrap ∧ Issues (.srwp { fx with imm := BitVec.ofNat 24 k }) g0 inTrap) := by
  unfold Issues; refine ⟨?_, ?_, ?_, ?_, ?_, ?_, ?_⟩ <;> decide +kernel

/-! Classes 0x6 to 0x8: accesses. -/

/-- The warp with V0 and V1 of I32, its lowest 64 KiB mapped. -/
def memw : State := { withV 1 0 warp with tlb := mapped.tlb }
def memR (f : Regs → Regs) : State := memw.mapRegs f
def memY (f : SysRegs → SysRegs) : State := { memw with cur := { memw.cur with y := f memw.cur.y } }
def memM (f : Accesses → Accesses) : State := { memw with cur := { memw.cur with m := f memw.cur.m } }
def ops63 : List OpRef := List.replicate 63 { id := 9, done := false }
/-- Each loading form at the addresses that the core accepts: a full list of gathers, and the first and last window word. -/
theorem witness_LoadsIssue :
    let m := laneMask memw.cur g0
    memw.cur.role = .warp
    ∧ (Issues (.sld { fm with ty := 3 }) g0 memw ∧ canonical 0 = true ∧ ∀ l ∈ lanesOf m, canonical (BitVec.ofNat 64 (4 * l)) = true)
    ∧ (Issues (.vgld fm) g0 memw ∧ memw.cur.m.ga.length < 63)
    ∧ (Issues (.vgld fm) g0 (memM (fun m => { m with ga := ops63 })) ∧ 63 ≤ ops63.length)
    ∧ (Issues (.wld fm) g0 (memY (fun y => { y with wswin := 1 })) ∧ ∀ l ∈ lanesOf m, inWindow 1 (BitVec.ofNat 64 (4 * l)) = true
        ∧ canonical (BitVec.ofNat 64 (4 * l)) = true)
    ∧ (Issues (.wld { fm with sub := 3 }) g0 (memY (fun y => { y with wswin := 1 })) ∧ ∀ l ∈ lanesOf m, ∀ j ∈ List.range 8,
        inWindow 1 (BitVec.ofNat 64 (128 * j + 4 * l)) = true)
    ∧ (Issues (.tld { fm with sub := 3, vx := 6 }) g0 (memR (fun r => r.setS 6 32)) ∧ (32 : Dword).toNat % (4 * 8) = 0)
    ∧ (Issues (.spop { fm with sub := 7 }) g0 memw ∧ memw.cur.y.sptr.toNat % 8 = 0 ∧ (wordsAt 0 64).all canonical = true)
    ∧ (Issues (.vpop { fm with sub := 7 }) g0 memw ∧ memw.cur.y.sptr.toNat % 16 = 0
        ∧ (wordsAt 0 (128 * 8 + 16)).all canonical = true) := by
  unfold Issues; refine ⟨?_, ?_, ?_, ?_, ?_, ?_, ?_, ?_, ?_⟩ <;> decide +kernel

/-- A pending scalar load of address 0. -/
def aRet : Ret :=
  { i := .sld { fm with ty := 3 }, pc := 0, mask := 1, elems := [{ lane := 0, reg := 5, ea := 0, bytes := 8 }], got := [],
    confirmed := false, trap := none, sptr := 0, counted := none }
def pend (r : Ret) (s : State) : State := { s with cur := { s.cur with m := { s.cur.m with returning := [r] } } }
/-- R199, R206: a scalar LLD of the last byte of the scratchpad and one beyond it, and a vector one; R197: a load that is refused,
one that gives a value, one confirmed, and one that faulted. -/
theorem witness_LoadsReturn :
    (Issues (.lld { fm with sub := 8, sa := 6 }) g0 (memR (fun r => r.setS 6 262143)) ∧ 262143 + 1 ≤ (memw.group 0).scratchSize
        ∧ (memw.group 0).scratchBad = [])
    ∧ (Issues (.lld { fm with sub := 8, sa := 6 }) g0 (memR (fun r => r.setS 6 262144)) ∧ settled memw.cur = true)
    ∧ (Issues (.lld fm) g0 memw ∧ ∀ l ∈ lanesOf (laneMask memw.cur g0), 4 * l % 4 = 0 ∧ 4 * l + 4 ≤ (memw.group 0).scratchSize)
    ∧ ((pend aRet warp).cur.live = true ∧ (pend aRet warp).cur.m.stores = []
        ∧ ((pend aRet warp).xlatWords { fine := true } false (wordsAt 0 8)).1.isOk = false)
    ∧ (((pend aRet memw).xlatWords { fine := true } false (wordsAt 0 8)).1.isOk = true
        ∧ (let pw : PWord := { kind := 0, peer := 0, off := 0 }
           (pend aRet memw).refreshHolds 0 pw = false ∧ (pend aRet memw).waits memw.me none (memw.nameOf (0, pw)) = false)) := by
  unfold Issues; refine ⟨?_, ?_, ?_, ?_, ?_⟩ <;> decide +kernel
theorem witness_LoadsReturn_refused : ∃ va k u, (pend aRet warp).xlatWords { fine := true } false (wordsAt 0 8) = (.error (va, k), u)
    ∧ u.cur = (pend aRet warp).cur := ⟨_, _, _, rfl, rfl⟩
theorem witness_LoadsReturn_value : ∃ ws u v w, (pend aRet memw).xlatWords { fine := true } false (wordsAt 0 8) = (.ok ws, u)
    ∧ u.readElem u.me 0 8 ws = ((v, false), w) ∧ u.cur = (pend aRet memw).cur ∧ w.cur = (pend aRet memw).cur :=
  ⟨_, _, _, _, rfl, rfl, rfl, rfl⟩
theorem witness_LoadsReturn_commits :
    (let r := { aRet with confirmed := true, got := [{ lane := 0, reg := 5, val := 7, bad := false }] }
     (pend r warp).cur.live = true ∧ (pend r warp).cur.m.returning = [r] ∧ r.i = .sld { fm with ty := 3 } ∧ 5 = lowS fm.d)
    ∧ (let r := { aRet with trap := some { cls := 3, kind := 1 } }
       (pend r warp).cur.m.returning = [r] ∧ r.confirmed = false ∧ tsInh warp.cur.t.tstat = false ∧ (warp.group 0).halt = none) := by
  decide +kernel
/-- One lane of a gather that faulted with `nf`. -/
theorem witness_LoadsReturn_nf :
    let r := { aRet with i := .vgld { fm with pp := 1, sub := 8 }, confirmed := true, nf := 5 }
    (pend r warp).cur.live = true ∧ (pend r warp).cur.m.returning = [r] ∧ loadNf r.i = some 1 := by decide +kernel

/-- Stores that the core accepts; pushes to the limit of SLIM, past it, and from a misaligned SPTR. -/
theorem witness_StoresIssue :
    let w := fun (va : Dword) => canonical va = true ∧ inWindow memw.cur.y.wswin va = false
    (Issues (.sst fm) g0 memw ∧ isRel fm.ord = false ∧ w 0)
    ∧ (Issues (.vst fm) g0 memw ∧ Issues (.vsct fm) g0 memw ∧ memw.cur.m.ga.length < 63 ∧ ∀ l ∈ lanesOf (laneMask memw.cur g0), w (BitVec.ofNat 64 (4 * l)))
    ∧ (Issues (.tst { fm with sub := 3, vx := 6 }) g0 (memR (fun r => r.setS 6 32)) ∧ ∀ l ∈ lanesOf (laneMask memw.cur g0),
        w (BitVec.ofNat 64 l * 32))
    ∧ (Issues (.spush fm) g0 (stacked 0x808 0) ∧ slimLimit 0x800 ≤ (0x808 : Dword).toInt - 8)
    ∧ (Issues (.spush fm) g0 (stacked 0x800 0) ∧ (0x800 : Dword).toInt - 8 < slimLimit 0x800)
    ∧ Issues (.spush fm) g0 (stacked 0x804 0)
    ∧ (Issues (.vpush fm) g0 (stacked 0x890 0) ∧ slimLimit 0x800 ≤ (0x890 : Dword).toInt - 144)
    ∧ (Issues (.vpush fm) g0 (stacked 0x880 0) ∧ (0x880 : Dword).toInt - 144 < slimLimit 0x800)
    ∧ Issues (.vpush fm) g0 (stacked 0x898 0) := by
  unfold Issues; refine ⟨?_, ?_, ?_, ?_, ?_, ?_, ?_, ?_, ?_⟩ <;> decide +kernel

/-! Atomics at system scope on mapped memory. -/

def faSys : FA := { fa with ty := 3, sc := .sys }
theorem witness_Atomics :
    (let pw : PWord := { kind := 0, peer := 0, off := 0 }
     scopeLevel memw.me .sys pw.kind = 6 ∧ memw.gone pw = false ∧ (memw.homeWord pw).2 = false ∧ memWf memw.mem = true)
    ∧ (∀ i ∈ [Instr.satom faSys, .scas faSys, .tkreq { faSys with ty := 0 }, .tkserve { faSys with ty := 0 }], Issues i g0 memw)
    ∧ (Issues (.satom { faSys with off := 1 }) g0 memw ∧ canonical 1 = true ∧ 1 % (stWidth (stOf 3) / 8) ≠ 0) := by
  unfold Issues; decide +kernel
/-- The translation, the scope check and the update of SATOM, SCAS, TKREQ and TKSERVE. -/
theorem witness_Atomics_done : ∃ ws u v x, memw.xlatWords { write := true, atomic := true } false (wordsAt 0 8) = (.ok ws, u)
    ∧ u.ownWaits u.me .sys (ws.map u.nameOf) true = []
    ∧ (u.ownStoresFirst 0 8).checkAccess u.me .sys (ws.map u.nameOf) true false = some v
    ∧ v.atomStep v.me .sys ws (fun o => some (o + 1)) = (.ok 0, x) := ⟨_, _, _, _, rfl, rfl, rfl, rfl⟩
theorem witness_VectorAtomics :
    (∀ i ∈ [Instr.vatom { fa with ty := 1, sc := .sys }, .vcas { fa with ty := 1, sc := .sys }, .fatom { fa with ty := 3, y := 2, sc := .sys }],
      Issues i g0 memw)
    ∧ memw.cur.m.stores = [] ∧ (memw.xlatLanes ((lanesOf 0xFFFFFFFF).map (fun l => (l, 0)))).1.all (fun x => x.ws.isOk) = true := by
  unfold Issues; decide +kernel
/-- The steps of a vector atomic of one lane. -/
theorem witness_VectorAtomics_done : ∃ ls u v os x, memw.xlatLanes ((lanesOf 1).map (fun l => (l, 0))) = (ls, u)
    ∧ ls.all (fun x => x.ws.isOk) = true
    ∧ (let ws := ls.flatMap (fun x => match x.ws with
        | .ok ws => ws
        | .error _ => [])
       u.ownWaits u.me .sys (ws.map u.nameOf) true = [] ∧ u.checkAccess u.me .sys (ws.map u.nameOf) true false = some v)
    ∧ v.atomLanes .sys 4 (fun _ o => some (o + 1)) ls = (os, x) :=
  ⟨_, _, _, _, _, rfl, rfl, ⟨rfl, rfl⟩, rfl⟩
/-- LST to the last bytes of the scratchpad and to every lane's word, LATOM with a word for each lane. -/
theorem witness_ScratchpadWrites :
    let s := memR (fun r => r.writeV 0 (Vector.ofFn (fun l => BitVec.ofNat 32 (4 * l))) 0x100)
    memw.memoryWf
    ∧ (Issues (.lst { fm with sub := 8, sa := 6 }) g0 (memR (fun r => r.setS 6 262143)) ∧ 262143 + 1 ≤ (memw.group 0).scratchSize
        ∧ notifies (memw.group 0) 262143 1 = false)
    ∧ (Issues (.lst fm) g0 memw ∧ ∀ l ∈ lanesOf (laneMask memw.cur g0), notifies (memw.group 0) (4 * l) 4 = false)
    ∧ (Issues (.latom { fa with ty := 1 }) g0 s ∧ (s.group 0).scratchBad = [] ∧ ∀ l ∈ lanesOf (laneMask s.cur g0),
        (s.cur.r.getV 0).lane l = BitVec.ofNat 32 (4 * l)) := by
  unfold Issues State.memoryWf; refine ⟨?_, ?_, ?_, ?_⟩ <;> decide +kernel

/-! Waits. -/

def waiting (i : Instr) (s : State) : State := s.mapCtl (fun c => { c with wait := some { i := i, start := 0, seen := 0 } })
/-- The core's clock at `n`. -/
def clocked (n : Nat) (s : State) : State := { s with clock := n, cores := [(0, { Core.zero with cclk := n })] }
def napping (e : Nat) : State := clocked 5 (warp.mapCtl (fun c => { c with napEnd := some e }))
/-- Each wait with its condition met and not met, and the events that look again. -/
theorem witness_Waits :
    (Issues (.waita faSys) g0 memw ∧ intCond 0 (stArg .i64 0) (stArg .i64 0) = true
      ∧ Issues (.waita { faSys with x := 6 }) g0 (memR (fun r => r.setS 6 1)) ∧ intCond 0 (stArg .i64 0) (stArg .i64 1) = false)
    ∧ (Issues (.tkwait { fa with sc := .sys }) g0 memw ∧ Issues (.tkwait { fa with sc := .sys, x := 6 }) g0 (memR (fun r => r.setS 6 1)))
    ∧ (Issues (.arrw fa) g0 memw ∧ (memw.cur.r.getS 0).toNat ≤ memNat (memw.group 0).scratch 0 8
      ∧ Issues (.arrw { fa with x := 6 }) g0 (memR (fun r => r.setS 6 1)) ∧ memNat (memw.group 0).scratch 0 8 < 1)
    ∧ (∀ k ∈ [0, 1], Issues (.waitb { fx with sd := 5, sub := BitVec.ofNat 8 k }) g0 memw
      ∧ Issues (.waitb { fx with sd := 5, sb := 6, sub := BitVec.ofNat 8 k }) g0 (memR (fun r => r.setS 6 1)))
    ∧ (Issues (.waitc fx) g0 memw ∧ Issues (.waitc fx) g0 (memM (fun m => { m with cp := [{ id := 9, done := false }] })))
    ∧ Issues (.wrsync { fx with sd := 5 }) g0 memw
    ∧ (Issues (.napc fx) g0 memw ∧ Issues (.napc { fx with sa := 6 }) g0 (memR (fun r => r.setS 6 1)))
    ∧ ((napping 5).cur.c.napEnd = some 5 ∧ 5 ≤ (napping 5).now ∧ (napping 6).now < 6 ∧ (napping 6).harts = [])
    ∧ (tskHalted warp.cur.t.tskid = false ∧ (warp.group 0).phase = .resident
      ∧ (waiting (.waita faSys) memw).lookAgain 0 8 { i := .waita faSys, start := 0, seen := 0 } = false
      ∧ (clocked 1024 (waiting (.waita faSys) memw)).lookAgain 0 8 { i := .waita faSys, start := 0, seen := 0 } = true
      ∧ goes (waitaBody faSys (waiting (.waita faSys) memw)) = true
      ∧ goes (tkwaitBody { fa with sc := .sys } (waiting (.tkwait { fa with sc := .sys }) memw)) = true
      ∧ goes (arrwBody fa (waiting (.arrw fa) memw)) = true)
    ∧ ((warp.die 0).openUntil = none ∧ warp.clock < (warp.die 0).nominal ∧ { warp with clock := 4096 }.dieHold 0 = false)
    ∧ (let s := { waiting (.wrsync { fx with sd := 5 }) warp with clock := 7, dies := [(0, { Die.zero with openUntil := some 7 })] }
       (s.die 0).openUntil = some 7 ∧ (s.allHarts.filter (waitsFor 0 0)).map (fun h => h.id) = [1] ∧ dieOf s.cur.pl.core = 0) := by
  unfold Issues; refine ⟨?_, ?_, ?_, ?_, ?_, ?_, ?_, ?_, ?_, ?_, ?_⟩ <;> decide +kernel
theorem witness_Waits_reads : ∃ ws u y, memw.xlatWords {} false (wordsAt 0 8) = (.ok ws, u)
    ∧ ((u.ownStoresFirst 0 8).dropSpan .sys ws).readWaits ws = false
    ∧ ((u.ownStoresFirst 0 8).dropSpan .sys ws).checkAccess memw.me .sys (ws.map u.nameOf) false true = some y :=
  ⟨_, _, _, rfl, rfl, rfl⟩
def looking (i : Instr) (x : Dword) : State := clocked 1024 (waiting i (memR (fun r => r.setS 6 x)))
/-- A waiting stream that may look again, its condition met and not met. -/
theorem witness_Waits_rechecks :
    let i : Instr := .waita { faSys with x := 6 }
    let s := looking i 1
    let w : Waiting := { i := i, start := 0, seen := 0 }
    (s.cur.live = true ∧ tskHalted s.cur.t.tskid = false ∧ (s.group s.cur.pl.group).phase = .resident ∧ s.cur.c.wait.isSome = true)
    ∧ s.lookAgain 0 8 w = true ∧ s.lookAgain 8 8 w = true ∧ intCond 0 (stArg .i64 0) (stArg .i64 0) = true
    ∧ intCond 0 (stArg .i64 0) (stArg .i64 1) = false := by
  refine ⟨?_, ?_, ?_, ?_, ?_⟩ <;> decide +kernel
theorem witness_Waits_rechecks_reads :
    let s := looking (.waita { faSys with x := 6 }) 1
    (match s.xlatWords {} false (wordsAt 0 8) with
      | (.ok ws, u) =>
        let d := (u.ownStoresFirst 0 8).dropSpan .sys ws
        match d.checkAccess d.me .sys (ws.map d.nameOf) false true with
        | some w =>
          let (v, z) := w.readElem w.me 0 8 ws
          !d.readWaits ws && v == (0, false) && ((z.fillSpans z.me (ws.map z.nameOf)).noteSpans z.me (ws.map z.nameOf)).cur.id == s.cur.id
        | none => false
      | (.error _, _) => false) = true := by decide +kernel

/-! Ordering, and stores. -/

/-- A pending store of one byte at address 0. -/
def aStore : Store :=
  { i := .sst fm, pc := 0, elems := [{ lane := 0, ea := 0, data := [7] }], range := none, scope := .core, priv := false,
    stack := true, counted := none, issuedAt := 0, faults := [], acks := [], pool := [] }
def withStore (st : Store) (s : State) : State := { s with cur := { s.cur with m := { s.cur.m with stores := [st] } } }
def aFault : Store := { aStore with elems := [], faults := [{ lane := 31, kind := 1, va := 0 }] }
def aRecord : SfRec := { pc := 0, va := 0, lanes := 1, kind := 1, fn := 0, icls := 6, slot := 0, issued := 0, kept := false }
/-- A faulted store that finds the core's queue of records full. -/
def stuckStore : State :=
  { memw with cur := { memw.cur with m := { memw.cur.m with stores := [aFault], sfrecs := List.replicate 16 aRecord } } }
theorem witness_Ordering :
    (maskBit 1 0 = true ∧ maskBit 2 1 = true ∧ maskBit 4 2 = true ∧ scopeNum .clus ≠ 0 ∧ (memw.release .clus 63).1 = true)
    ∧ (Issues (.fence { fx with sub := 1, imm := 0xFFF }) g0 memw ∧ (memw.release (scopeOfCode 1) 63).1 = true)
    ∧ (Issues (.fence { fx with imm := 2 }) g0 stuckStore ∧ (stuckStore.release (scopeOfCode 0) 2).1 = false)
    ∧ (Issues (.drainst fx) g0 memw ∧ memw.drain.cur.m.stores = [])
    ∧ (Issues (.drainst fx) g0 stuckStore ∧ stuckStore.drain.cur.m.stores ≠ [])
    ∧ (∀ i ∈ [Instr.cwb fm, .cwbi fm, .cinv fm, .pref fm, .pref { fm with sub := 4 }], Issues i g0 memw)
    ∧ (∀ i ∈ [Instr.cwb { fm with d := 6 }, .cwbi { fm with d := 6 }], Issues i g0 (memR (fun r => r.setS 6 64)))
    ∧ memw.cur.m.stores = [] ∧ memw.cur.m.sfrecs = [] := by
  unfold Issues; refine ⟨?_, ?_, ?_, ?_, ?_, ?_, ?_, ?_⟩ <;> decide +kernel
/-- Stores to push for a release, and none that wait. -/
theorem witness_Ordering_push : memw.pushWaits (memw.fenceLevel .clus) = [] ∧ maskBit 1 1 = false ∧ maskBit 1 2 = false ∧ maskBit 1 3 = false := by
  decide +kernel
/-- A core with as many requests outstanding as it may have. -/
def crowded : State :=
  { memw with cur := { memw.cur with m := { memw.cur.m with stores := List.replicate 4096 { aStore with elems := [], range := some (0, 4) } } } }
theorem witness_RequestRoom :
    memw.requestRoom 1 = true ∧ crowded.requestRoom 1 = false ∧ Issues (.sst fm) g0 crowded ∧ Issues (.sld { fm with ty := 3 }) g0 crowded
      ∧ Issues (.spush fm) g0 crowded ∧ Issues (.cwb { fm with d := 6 }) g0 (crowded.mapRegs (fun r => r.setS 6 64)) := by
  unfold Issues; decide +kernel
theorem witness_StoresReport :
    ((withStore aStore memw).storeWaits aStore = [] ∧ aStore.scope ≠ .surv ∧ aStore.stack = true
      ∧ ((withStore aStore memw).xlatWords { write := true, fine := fineStore aStore.i } false (wordsAt 0 1)).1.isOk = true
      ∧ ((withStore aStore warp).xlatWords { write := true, fine := fineStore aStore.i } false (wordsAt 0 1)).1.isOk = false)
    ∧ ((withStore aFault warp).queueLen 0 < 16 ∧ (warp.group 0).phase = .resident)
    ∧ 16 ≤ stuckStore.queueLen 0
    ∧ (warp.atBoundary warp.cur = true ∧ settled warp.cur = true ∧ tsInh warp.cur.t.tstat = false ∧ (warp.group 0).halt = none
      ∧ lowestPend warp.cur.t.tstat = none)
    ∧ (let f : HeldFail := { reason := 21, kind := 0, fn := 0, va := 0, token := 0, op := none }
       ({ warp.cur.m with fails := [f] }).nextFail = some f) := by
  refine ⟨?_, ?_, ?_, ?_, ?_⟩ <;> decide +kernel
/-- The words of a pending store, owned and written. -/
theorem witness_StoresReport_written : ∃ ws u w, (withStore aStore memw).xlatWords { write := true, fine := fineStore aStore.i } false (wordsAt 0 1) = (.ok ws, u)
    ∧ (∀ x ∈ ws, x.2.kind ≠ 2)
    ∧ (u.ownSpans u.me aStore.scope (relStore aStore.i) false (ws.map u.nameOf)).writeElem u.me aStore.scope (relStore aStore.i) 0 [7] ws = w
    ∧ u.cur = (withStore aStore memw).cur ∧ w.cur = (withStore aStore memw).cur := ⟨_, _, _, rfl, by decide +kernel, rfl, rfl, rfl⟩

/-! The rest of class 0x1. -/

def grp (f : Group → Group) (s : State) : State := { s with groups := [(0, f (s.group 0))] }
def lnc (f : Launch → Launch) (s : State) : State := { s with launches := [(0, f (s.launch 0))] }
/-- A second warp of the workgroup, in wave slot 1. -/
def sib (f : Hart → Hart) : Hart := f { warp.cur with id := 2, pl := { warp.cur.pl with slot := 1 } }
/-- The warp as the one member of its gang, of a launch of 16 gangs of one workgroup. -/
def ganged : State :=
  lnc (fun l => { l with hdr := { l.hdr with widths := [5, 4] } }) { warp with gangs := [(0, { Gang.zero with groups := [0] })] }
theorem witness_ControlForms :
    (Issues (.exit fx) g0 (grp (fun g => { g with seed := true }) warp) ∧ warp.cur.m.stores = [] ∧ warp.cur.m.sfrecs = []
      ∧ (warp.group 0).bcount = none ∧ (warp.warpsOf 0).map (fun h => h.id) = [1] ∧ (warp.group 0).halt ≠ some warp.cur.id)
    ∧ Issues (.exit fx) g0 bowl
    ∧ (Issues (.bar fx) g0 warp ∧ Issues (.bar { fx with imm := 1 }) g0 warp ∧ warp.cur.c.arrivedBar = false ∧ (warp.release .core 0x2B).1 = true)
    ∧ (let s := { warp with harts := [sib (fun h => h)] }
       Issues (.bar { fx with imm := 2 }) g0 s ∧ (s.warpsOf 0).length = 2 ∧ (s.warpsOf 0).filter (fun h => h.c.arrivedBar) = [])
    ∧ (Issues (.bar { fx with imm := 2 }) g0 warp ∧ (warp.warpsOf 0).length < 2)
    ∧ (Issues (.bar fx) g0 (grp (fun g => { g with bcount := some 1 }) warp))
    ∧ (Issues (.barg fx) g0 (grp (fun g => { g with seed := true }) warp) ∧ warp.cur.c.arrivedGang = false)
    ∧ (Issues (.barg fx) g0 (lnc (fun l => { l with hdr := { l.hdr with coloc := 5 } }) ganged) ∧ scopeNum (scopeOfCode 0) < 5)
    ∧ (Issues (.barg fx) g0 ganged ∧ (ganged.group 0).seed = false ∧ (ganged.launch 0).hdr.coloc ≤ scopeNum (scopeOfCode 0)
      ∧ (ganged.release (scopeOfCode 0) 0x2B).1 = true ∧ (ganged.gang (ganged.group 0).gang).groups = [0] ∧ (ganged.group 0).phase ≠ .ended)
    ∧ (Issues (.enq fx) g0 ganged ∧ (ganged.cur.r.getS 0).toNat = 0)
    ∧ (let l := ganged.launch 0
       (∀ i ∈ [Instr.enq { fx with sa := 6, sd := 7 }], Issues i g0 (withR ganged (fun r => r.setS 7 16)))
        ∧ 16 % l.hdr.gangSize = 0 ∧ 0 + 16 ≤ l.hdr.grid ∧ l.counter + 16 * l.hdr.warps ≤ 2 ^ 48 - 1 ∧ ¬ 1 + 16 ≤ l.hdr.grid
        ∧ 2 ^ 48 - 1 < (2 ^ 48 - 16) + 16 * l.hdr.warps)
    ∧ Issues (.yield fx) g0 warp ∧ Issues (.pfh fx) g0 warp := by
  unfold Issues; refine ⟨?_, ?_, ?_, ?_, ?_, ?_, ?_, ?_, ?_, ?_, ?_, ?_⟩ <;> decide +kernel
theorem witness_ControlForms_release : ∃ u, warp.release .core 0x2B = (true, u) ∧ u.cur = warp.cur ∧ u.group 0 = warp.group 0 :=
  ⟨_, rfl, rfl, rfl⟩
/-- EXIT of a warp of an ordinary gang, and one that a sibling waits for at the gang barrier; an ENQ after one of a higher wave slot. -/
theorem witness_ControlForms_more :
    (Issues (.exit fx) g0 ganged ∧ ganged.harts = [] ∧ (ganged.group 0).bcount = none ∧ (ganged.group 0).halt = none)
    ∧ (let h := sib (fun h => { h with c := { h.c with arrivedGang := true } })
       let s := { ganged with harts := [h], nextId := 3 }
       Issues (.exit fx) g0 s ∧ (s.warpsOf 0).map (fun x => x.id) = [s.cur.id, h.id] ∧ (s.gang 0).groups = [0] ∧ (s.group 0).phase ≠ .ended ∧ s.streamsDistinct)
    ∧ (let l := lnc (fun l => { l with pending := [.range 0 1 0 .core 0] }) ganged
       let s := { l with cores := [(0, { Core.zero with enq := some (1, 0, 0) })] }
       Issues (.enq { fx with sd := 6 }) g0 s ∧ (s.core 0).enq = some (1, s.cur.pl.launch, 0) ∧ s.cur.pl.slot < 1
        ∧ (s.launch 0).pending = [] ++ .range 0 1 0 .core 0 :: []) := by
  unfold Issues State.streamsDistinct; refine ⟨?_, ?_, ?_⟩ <;> decide +kernel

/-! Commands. -/

/-- The operands S6, S7 and S8 of a command. -/
def cmdR (a x y : Dword) : State := memR (fun r => ((r.setS 6 a).setS 7 x).setS 8 y)
def faC : FA := { fa with sa := 6, x := 7, y := 8 }
def faX : FA := { faC with sc := .sys }
/-- Each command with an operand Y that gives it work. -/
def cmdForms : List (Instr × FA × Nat × Dword) :=
  [(.cpy faC, faC, 0, 64), (.cpy2d faC, faC, 1, 0x0001000100010010), (.cpysp { faC with ty := 3 }, { faC with ty := 3 }, 2, 0x8000010020),
   (.csrwk faC, faC, 3, 0), (.xfer faX, faX, 4, 64), (.xget faX, faX, 5, 64), (.poolfill { faX with x := 0 }, { faX with x := 0 }, 6, 64),
   (.poolcopy faX, faX, 7, 64), (.poolcmp faX, faX, 8, 64), (.poolred { faX with ty := 1 }, { faX with ty := 1 }, 9, 64)]
def aCmd : Cmd := { mkCmd faC 0 (cmdR 0x100 0 4) with id := 1 }
def queued (s : State) : State := { s with cmds := [aCmd] }
/-- The command number 1, by its function, of one word from address 0 to 0x100. -/
def aForm (fn : Nat) : Cmd := { aCmd with fn := fn, ty := 1 }
/-- The lowest 64 KiB mapped to a pool extent. -/
def pooled : State :=
  { memw with
    tlb := [{ stack := 0, asid := 0, glob := false, base := 0, size := 65536, leaf := 0x0400000000000013 }]
    extents := [{ port := 0, base := 0, size := 65536 }] }
def running1 (c : Cmd) (s : State) : State := { s with cmds := [c] }
/-- A device that fills, with a record in its slot 0 whose completion word is `w`. -/
def device (w : Dword) : State :=
  { pooled with devs := [(0, { PoolDev.zero with ops := 1, slots := 1, window := [(0, List.replicate 56 0 ++ leBytes 8 w.toNat)] })] }
/-- Each form accepted; of length 0; refused by an address and by a limit; a full counter; and a release that waits. -/
theorem witness_Commands :
    (∀ p ∈ cmdForms, let s := cmdR 0x100 0 p.2.2.2
      Issues p.1 g0 s ∧ s.cmdRefusal s.cur.y.wswin (mkCmd p.2.1 p.2.2.1 s) = none ∧ (mkCmd p.2.1 p.2.2.1 s).empty = false)
    ∧ (isRel faC.ord = false ∧ memw.cur.m.cp.length < 63 ∧ memw.cur.m.fb.length < 63 ∧ memw.harts = [])
    ∧ (Issues (.cpy faC) g0 (cmdR 0x100 0 0) ∧ (mkCmd faC 0 (cmdR 0x100 0 0)).empty = true ∧ memw.cur.live = true
      ∧ memw.groupLives memw.cur.pl.group = true)
    ∧ ((cmdR 1 0 4).cmdRefusal 0 (mkCmd faC 0 (cmdR 1 0 4))).map (fun e => e.reason) = some 18
    ∧ ((cmdR 0 0 2).cmdRefusal 0 (mkCmd faC 0 (cmdR 0 0 2))).map (fun e => e.reason) = some 16
    ∧ (Issues (.cpy faC) g0 { cmdR 0x100 0 4 with cur := { (cmdR 0x100 0 4).cur with m := { memw.cur.m with cp := ops63 } } })
    ∧ (Issues (.cpy { faC with ord := .rel }) g0 (cmdR 0x100 0 4) ∧ isRel Order.rel = true ∧ ((cmdR 0x100 0 4).release (cmdScope .core) 3).1 = true
      ∧ (stuckStore.release (cmdScope .core) 3).1 = false) := by
  unfold Issues; refine ⟨?_, ?_, ?_, ?_, ?_, ?_, ?_⟩ <;> decide +kernel
/-- What becomes of a command: a copy that ends at once, one whose writes a pool device or a delta holds back; others that end and
that fail; a chunk; both steps of POOLRED; and a device's completion word open, in error and in order. -/
theorem witness_Commands_end :
    (memw.cmd? 1 = none ∧ ((queued memw).cmd? 1).map (fun c => c.id) = some 1)
    ∧ (match (queued memw).moveTo aCmd 1 with
      | (.ok d, u) => decide (u.cmd? 1 = some d) && u.acksIn d.acks && !u.cmdPool d
      | (.error _, _) => false) = true
    ∧ (match (queued pooled).moveTo aCmd 1 with
      | (.ok d, u) => decide (u.cmd? 1 = some d) && u.cmdPool d
      | (.error _, _) => false) = true
    ∧ (memw.acksIn [] = true ∧ memw.cmdPool { aCmd with fin := some (4, false) } = false)
    ∧ (let s := running1 (aForm 6) pooled
       (s.runCmd (aForm 6)).1.isOk = true ∧ (s.runCmd (aForm 6)).2.cmd? 1 = some (aForm 6) ∧ s.onDevice (aForm 6) = none
        ∧ (aForm 6).scope ≠ .surv)
    ∧ (match ((queued warp).runCmd aCmd).1 with
      | .error e => e.reason != 0 && !outsideFail aCmd e
      | .ok _ => false) = true
    ∧ (let w : CmdFail := { reason := 19, kind := 0, va := 0, off := 0 }
       outsideFail { aForm 4 with refused := some w } w = true)
    ∧ (let c := { aCmd with aop := 4, bm := 0x200 }
       c.hasBm = true ∧ 0 < c.chunks ∧ ((running1 c memw).moveTo c (min (128 * (0 + 1)) (c.total / 4))).1.isOk = true)
    ∧ (let s := running1 (aForm 9) pooled
       s.onDevice (aForm 9) = none ∧ (s.poolReds (aForm 9) 1).1.isOk = true
        ∧ (s.poolStores { aForm 9 with got := some [(7, false)] } 0 [7]).1.isOk = true)
    ∧ ((device 0).onDevice (aForm 6) = some 0 ∧ (device 0).onDevice (aForm 7) = none)
    ∧ (let x := fun (w : Dword) => (((device w).devs.at 0 PoolDev.zero).completion 0)
       bit (x 0) 63 = false ∧ (((device 0).devs.at 0 PoolDev.zero).window.at 0 []).length = 64
        ∧ bit (x 0xC000000000000000) 62 = true ∧ bit (x 0xC000000000000000) 63 = true
        ∧ bit (x 0x8000000000000004) 63 = true ∧ bit (x 0x8000000000000004) 62 = false)
    ∧ (memw.cur.id = aCmd.hart ∧ memw.cur.pl.group = aCmd.group ∧ memw.groupLives aCmd.group = true ∧ 0 < aCmd.token ∧ aCmd.token < 128) := by
  refine ⟨?_, ?_, ?_, ?_, ?_, ?_, ?_, ?_, ?_, ?_, ?_, ?_⟩ <;> decide +kernel
/-- A bitmap word that can take its bit and one that is uncorrectable; a transfer held and not. -/
theorem witness_Commands_bits :
    let c := { aCmd with aop := 4, bm := 0x200 }
    let s := queued (grp (fun g => { g with scratchBad := [0x200] }) memw)
    c.hasBm = true ∧ s.bitFail c [0] = some { reason := 18, kind := 0, va := 0x200, off := 0 } ∧ memw.bitFail c [0] = none
      ∧ (let r : FabReq := { id := 7, peer := 0, what := .xfer 1 0, failed := 0, via := none, sentAt := 0, held := true }
         { warp with fabric := [r] }.ownHeld { c with fn := 4 } = true ∧ warp.ownHeld { c with fn := 4 } = false) := by decide +kernel

/-! The reservation table. -/

def aBowler : Hart := { warp.cur with id := 3, role := .bowler }
def withEntry (n : Nat) (e : Entry) (s : State) : State := s.setEntry 0 n e
def taken7 : Entry := { Entry.zero with st := .taken, hart := 7, tok := 5 }
theorem witness_ReservationTable :
    (Issues (.mpost fa) g0 memw ∧ memw.cur.m.mx.length < 63 ∧ (memw.release .clus 0xF).1 = true ∧ memw.streamOn 0 0 = false)
    ∧ (let s := { memw with harts := [aBowler] }
       Issues (.mpost fa) g0 s ∧ s.streamOn 0 0 = true ∧ s.mayPost 0 false = true ∧ (s.freeEntries 0).length = 16
        ∧ s.waitingPosts 0 = [] ∧ s.readmitting 0 = [])
    ∧ (let s := { memw with harts := [aBowler], clusters := [(0, { Cluster.zero with table := Vector.replicate 16 { Entry.zero with st := .posted } })] }
       Issues (.mpost fa) g0 s ∧ s.streamOn 0 0 = true ∧ s.mayPost 0 false = false)
    ∧ (let s := { withEntry 15 { Entry.zero with st := .posted, pri := 7 } bowl with clock := 1 }
       s.chosen.map (fun p => p.1) = some 15 ∧ Issues (.mtake fmx) g0 s)
    ∧ (bowl.chosen = none ∧ Issues (.mtake { fmx with sub := 1 }) g0 bowl ∧ bowl.drained = true)
    ∧ (Issues (.mtake fmx) g0 (lnc (fun l => { l with counter := 2 }) bowl) ∧ (lnc (fun l => { l with counter := 2 }) bowl).drained = false)
    ∧ (takenEntry bowl 0 = none ∧ Issues (.mdone fmx) g0 bowl)
    ∧ (let s := withEntry 15 taken7 (withR bowl (fun r => r.setS 6 0x800000000000000F))
       Issues (.mdone { fmx with sa := 6 }) g0 s ∧ takenEntry s (s.cur.r.getS 6) = some 15 ∧ (s.release .clus 0xF).1 = true
        ∧ (s.entry 0 15).hart ≠ s.cur.id)
    ∧ (warp.waitingPosts 0 = [] ∧ warp.readmitting 0 = []
      ∧ ((waiting (.mpost fa) warp).waitingPosts 0).map (fun h => h.id) = [1] ∧ (warp.freeEntries 0).length = 16)
    ∧ (let s := { withEntry 15 { Entry.zero with st := .posted, pri := 5 } warp with clock := 65536 }
       (s.entry 0 15).st = .posted ∧ (s.entry 0 15).pri < 6
        ∧ (s.entry 0 15).raised + max (getBits (s.cluster 0).mxcfg 0 16) 1 * 1024 ≤ s.clock)
    ∧ ((bowl.bowlerOf 0).map (fun h => h.id) = some bowl.cur.id ∧ bowl.cur.bow.stopped = false) := by
  unfold Issues; refine ⟨?_, ?_, ?_, ?_, ?_, ?_, ?_, ?_, ?_, ?_, ?_⟩ <;> decide +kernel
/-- Nothing to release before MPOST and MDONE; a waiting post whose stream runs, and one whose stream has ended. -/
theorem witness_ReservationTable_direct :
    NothingToRelease .clus memw ∧ NothingToRelease .clus (withEntry 15 taken7 (withR bowl (fun r => r.setS 6 0x800000000000000F)))
    ∧ (let s := waiting (.mpost fa) { warp with harts := [aBowler] }
       (s.waitingPosts 0).map (fun h => h.id) = [s.cur.id] ∧ s.streamOn 0 0 = true ∧ (s.freeEntries 0).length = 16
        ∧ (waiting (.mpost fa) warp).streamOn 0 0 = false) := by
  unfold NothingToRelease; decide +kernel
/-- An MPOST after one of a higher wave slot in its core clock. -/
theorem witness_ReservationTable_order :
    let t := withEntry 0 { Entry.zero with st := .posted, opId := 50 } { memw with harts := [aBowler] }
    let s := { t with cores := [(0, { Core.zero with post := some (1, 50) })] }
    Issues (.mpost fa) g0 s ∧ (s.core 0).post = some (1, 50) ∧ s.cur.pl.slot < 1 ∧ s.mayPost 0 false = true
      ∧ (s.freeEntries 0).head? = some 1 ∧ (s.entry 0 0).st = .posted ∧ (∀ j, j < 16 → j ≠ 0 → (s.entry 0 j).opId ≠ 50) ∧ 50 ≠ s.nextId := by
  unfold Issues; decide +kernel

/-! The matrix engine. -/

def aDesc : Desc := { addr := 0, stride := 0, k := 32, rows := 1, mf := 0, scale := 0 }
/-- A Bowler stream on mapped memory, with both descriptors and S8 and S9 set. -/
def engineS (x y : Dword) : State :=
  { withR bowl (fun r => (r.setS 8 x).setS 9 y) with
    tlb := mapped.tlb
    cur := { (withR bowl (fun r => (r.setS 8 x).setS 9 y)).cur with bow := { bowl.cur.bow with descA := some aDesc, descB := some aDesc } } }
theorem witness_MatrixUnit :
    (Issues (.mopa { fmx with sc := 8 }) g0 (engineS 0x1000000 0) ∧ Issues (.mopb { fmx with sc := 8 }) g0 (engineS 0x40000000 0)
      ∧ getBits (0x1000000 : Dword) 24 13 = 1 ∧ getBits (0x40000000 : Dword) 24 13 = 64 ∧ getBits (0x40000000 : Dword) 37 27 = 0)
    ∧ (Issues (.mopa { fmx with sc := 8 }) g0 (engineS 0 0) ∧ Issues (.mopb { fmx with sc := 8 }) g0 (engineS 0x41000000 0)
      ∧ getBits (0x41000000 : Dword) 24 13 = 65)
    ∧ (Issues (.mprogSet { fmx with sb := 8, sub := 1 }) g0 (engineS 0x8000000000000040 0))
    ∧ (∀ x ∈ [0x300, 0xF00, 0x200], let s := engineS (BitVec.ofNat 64 x) 0
        Issues (.mtagtSet { fmx with sb := 8, sub := 1 }) g0 s ∧ getBits (s.cur.r.getS 8) 8 4 = x / 256)
    ∧ (Issues (.mma fmx) g0 (engineS 0 0) ∧ getBits (((engineS 0 0).cur.bow.tile 0).tag.setWidth 64) 8 4 = 3
      ∧ ((engineS 0 0).runPass { a := aDesc, base := 0, b := aDesc, td := 0, m := 1, n := 1, op := 0, group := 0 } 0).1 = none)
    ∧ (Issues (.mma fmx) g0 bowl ∧ bowl.cur.bow.descA = none)
    ∧ (let s := grp (fun g => { g with scratch := [(16, 1), (18, 1)] }) (withEntry 0 taken7 (engineS 0x8000000000000000 1))
       Issues (.mmag { fmx with sa := 8, sc := 9 }) g0 s ∧ takenEntry s (s.cur.r.getS 8) = some 0 ∧ (descPair s).isOk = true ∧ s.groupLives 0 = true
        ∧ (mgroups (s.group 0) 0 (List.range 1)).isOk = true
        ∧ (s.runPass { a := aDesc, base := 0, b := aDesc, td := 0, m := 1, n := 1, op := 1, group := 0 } 0).1 = none)
    ∧ (let s := engineS 0x101 0
       Issues (.mldc { fmx with sc := 8, mf := 2 }) g0 s ∧ (shapeOf { fmx with sc := 8, mf := 2 } s).isSome = true
        ∧ (s.tileRows 0 0 1 2 (List.range 1)).1.isOk = true)
    ∧ (let s := engineS 0x101 0
       Issues (.mstf { fmx with sc := 8, mf := 2 }) g0 s ∧ Issues (.mstl { fmx with sc := 8 }) g0 s
        ∧ flgTraps s.cur.y.flg 0 = false ∧ (s.engineRows 0 0 [(0, [0, 0])]).1 = none) := by
  unfold Issues; refine ⟨?_, ?_, ?_, ?_, ?_, ?_, ?_, ?_, ?_⟩ <;> decide +kernel

/-! The supervisor's forms. -/

def trapS (a b : Dword) : State := withR inTrap (fun r => (r.setS 6 a).setS 7 b)
def aCopy : Copy :=
  { node := { level := 1, idx := 0 }, key := { asid := 0, va := 0, pw := { kind := 0, peer := 0, off := 0 } }, st := .m, val := some 7,
    bad := false, ver := 1, pf := 0 }
theorem witness_SystemForms :
    (Issues (.wgend fx) g0 (grp (fun g => { g with seed := true }) inTrap) ∧ Issues (.wgend { fx with sub := 1 }) g0 inTrap
      ∧ (inTrap.group 0).seed = false)
    ∧ (let s := { inTrap with gangs := ganged.gangs }
       Issues (.wgend fx) g0 s ∧ (s.gang (s.group 0).gang).groups = [0] ∧ Issues (.gangend fx) g0 s
        ∧ Issues (.swapb fx) g0 s ∧ s.gangIn 0 .resident = [0] ∧ (s.group 0).phase = .resident ∧ s.shadowFree [0] = true)
    ∧ (let s := { inTrap with gangs := ganged.gangs, groups := [(0, inTrap.group 0), (1, { inTrap.group 0 with phase := .saving, swapDone := true, gang := 1 })] }
       Issues (.swapb fx) g0 s ∧ s.gangIn 0 .resident = [0] ∧ s.shadowFree [0] = false)
    ∧ (∀ i ∈ [Instr.xlatinv { fx with sa := 6 }, .purgev { fx with sa := 6 }], Issues i g0 (trapS 0x200000000000000 0))
    ∧ canonical 0x200000000000000 = false
    ∧ (∀ i ∈ [Instr.xlatinv { fx with sa := 6, sb := 7, imm := 0x30000 }, .purgev { fx with sa := 6, sb := 7, imm := 0x30000 }],
        Issues i g0 (trapS 0 4))
    ∧ (({ trapS 0 4 with copies := [aCopy] }).copies = [aCopy] ∧ aCopy.node = { level := 1, idx := aCopy.node.idx } ∧ memWf inTrap.mem = true)
    ∧ (Issues (.sfqpop { fx with sd := 124 }) g0 inTrap)
    ∧ (Issues (.siderd { fx with sd := 5 }) g0 inTrap)
    ∧ (Issues (.haltcHalt { fx with sd := 5 }) g0 inTrap ∧ (inTrap.group 0).halt = none)
    ∧ (let s := grp (fun g => { g with halt := some 1 }) inTrap
       Issues (.haltcHalt { fx with sd := 5 }) g0 s ∧ Issues (.haltcLift { fx with sd := 5, sub := 1 }) g0 s
        ∧ (s.group 0).halt = some s.cur.id)
    ∧ (Issues (.haltcLift { fx with sd := 5, sub := 1 }) g0 inTrap ∧ Issues (.haltcRetire { fx with sd := 5, sub := 2 }) g0 inTrap
      ∧ tskHalted inTrap.cur.t.tskid = false)
    ∧ (let h := sib (fun h => { h with t := { h.t with tskid := 1 } })
       let s := { grp (fun g => { g with halt := some 1, seed := true }) (trapS 1 0) with harts := [h] }
       Issues (.haltcRetire { fx with sd := 5, sa := 6, sub := 2 }) g0 s ∧ h.id ≠ s.cur.id ∧ h.live = true ∧ h.pl.slot = 1
        ∧ tskHalted h.t.tskid = true ∧ (s.group 0).halt = some s.cur.id ∧ s.cur.live = true)
    ∧ Issues (.evpost fx) g0 inTrap := by
  unfold Issues; refine ⟨?_, ?_, ?_, ?_, ?_, ?_, ?_, ?_, ?_, ?_, ?_, ?_, ?_, ?_⟩ <;> decide +kernel

/-! Coherence and the fabric. -/

def held (st : CohSt) (lvl : Nat) : State := { warp with copies := [{ aCopy with node := { level := lvl, idx := 0 }, st := st }] }
def aAtom : AtomReq := { pkg := 1, port := 0, off := 4, wide := false, op := 9, x := 1, y := 0 }
theorem witness_Coherence :
    (warp.me.lvl ≤ 1 ∧ warp.me.core < 512 ∧ memWf warp.mem = true)
    ∧ (((held .w 1).copyAt { level := 1, idx := 0 } aCopy.key).st = .w ∧ ((held .w 2).copyAt { level := 2, idx := 0 } aCopy.key).st = .w
      ∧ (warp.copyAt { level := 1, idx := 0 } aCopy.key).st = .i ∧ warp.poisonWaits aCopy.key.pw = false)
    ∧ (((held .m 0).copyAt { level := 0, idx := 0 } aCopy.key).st = .m ∧ ((held .m 0).copyAt { level := 0, idx := 0 } aCopy.key).val = some 7) := by
  refine ⟨?_, ?_, ?_⟩ <;> decide +kernel

/-- Package 0 of a pod of two. -/
def pod2 (p : Peer) : State := { warp with podn := 1, peers := [(1, p)] }
/-- The word at offset 4 is shared by package 1; another request of its clock was served; its die's entry is being resolved. -/
def shared : State := { pod2 Peer.zero with sharers := [(0, 2)] }
def served : State := { pod2 Peer.zero with served := [(hbmKey 4, 2000)], servedAt := 0 }
def resolving : State :=
  { pod2 Peer.zero with
    dies := [(0, { Die.zero with failed := true, rebuild := some (0, 0), spans := [{ pw := hbmWord 0, words := 32, lost := true, poison := true }] })] }
/-- A request to package 1 after `n` failed attempts, at clock `c`. -/
def asking (w : FabWhat) (n c : Nat) : State :=
  { pod2 Peer.zero with clock := c, fabric := [{ id := 7, peer := 1, what := w, failed := n, via := none, sentAt := 0 }] }
theorem witness_Coherence_home :
    (let s := pod2 Peer.zero
     s.peerMay 1 4 8 = true ∧ s.peerMay 2 4 4 = false ∧ s.deadHolds (hbmWord 4) = false ∧ s.poisonWaits (hbmWord 4) = false
      ∧ s.homeWriteWaits (fabricRank 0) true (hbmWords 4 4) = false ∧ s.homeLate (fabricRank 0) (hbmWord 4) = false
      ∧ s.sharersOf (hbmWord 4) = [] ∧ (s.homeWord (hbmWord 4)).2 = false ∧ aAtom.op < 15 ∧ aAtom.off % 4 = 0 ∧ aAtom.wide = false)
    ∧ ((pod2 { Peer.zero with departed := true }).peer 1).departed = true
    ∧ ({ aAtom with off := 2 }.off % 4 ≠ 0 ∧ { aAtom with off := 4, wide := true }.off % 8 ≠ 0)
    ∧ (hbmWords 4 4 = [hbmWord 4] ∧ shared.sharersOf (hbmWord 4) = [1] ∧ shared.peerMay 1 4 4 = true)
    ∧ (resolving.deadHolds (hbmWord 4) = true ∧ served.homeLate (fabricRank 0) (hbmWord 4) = true)
    ∧ (2 ^ 39 - 1 + ([7] : List Byte).length ≤ 2 ^ 39 ∧ warp.homeWriteWaits (hostRank 0) false (hbmWords 4 4) = false
      ∧ served.homeWriteWaits (hostRank 0) false (hbmWords 4 4) = true ∧ warp.homeReadWaits (hbmWords 4 4) = false)
    ∧ ({ warp with powered := false }.powered = false ∧ 2 ^ 45 - 4 + 4 ≤ 2 ^ 45)
    ∧ ((asking (.drop 0) 0 0).fabric.any (fun r => r.peer == 1 && r.what == .drop (4 / 128 * 128)) = true ∧ warp.fabric = []) := by
  refine ⟨?_, ?_, ?_, ?_, ?_, ?_, ?_, ?_⟩ <;> decide +kernel
theorem witness_Coherence_base : (pod2 Peer.zero).homeBase 0 (hbmWord 4) = (0, false) := by decide +kernel

/-- A packet from package 1 to endpoint 0 of core 0, wave slot 0, and a window of 256 bytes with its counter at 256. -/
def aPacket : Packet := { src := 1, id := 4, handle := 0, off := 252, data := [1, 2, 3, 4], bads := [0], tkt := false, count := 1 }
def endpointed (ph : Phase) : State :=
  { pod2 Peer.zero with groups := [(0, { warp.group 0 with phase := ph, epc := vset (warp.group 0).epc 0 38482906972416 })] }
theorem witness_Fabric :
    (((asking (.xget 1 0) 2 32767).fabric.find? (fun x => x.id == 7)).any (fun r => r.failed < 3 && 32767 < r.sentAt + 32768) = true
      ∧ ((asking (.xget 1 0) 3 32768).fabric.find? (fun x => x.id == 7)).any (fun r =>
          3 ≤ r.failed && r.sentAt + 32768 ≤ 32768 && !r.held && (asking (.xget 1 0) 3 32768).stillAsks r) = true
      ∧ ((asking (.xget 1 0) 3 32768).peer 1).departed = false ∧ (pod2 Peer.zero).fabric.find? (fun x => x.id == 7) = none
      ∧ warp.stillAsks { id := 7, peer := 1, what := .access 0, failed := 0, via := none, sentAt := 0, who := .cmd 9 } = false)
    ∧ ({ pod2 Peer.zero with podn := 2 }.detourOf 1 = some 2 ∧ (pod2 Peer.zero).detourOf 1 = none)
    ∧ ((pod2 Peer.zero).linkOk 0 1 = true ∧ (pod2 Peer.zero).fabric = [] ∧ (pod2 { Peer.zero with linkUp := false }).linkOk 0 1 = false
      ∧ (asking (.xget 1 0) 2 0).fabric.all (fun r => (asking (.xget 1 0) 2 0).overLink r 0 1 && r.failed < 3) = true)
    ∧ (((pod2 { Peer.zero with departed := true }).peer 1).departed = true ∧ warp.cmds = []
      ∧ warp.allHarts.map (fun h => (h.m.returning, h.m.stores)) = [([], [])])
    ∧ (3 ≤ 3 ∧ 0 + 2 ^ 43 ≤ 2 ^ 43 ∧ warp.extents = [])
    ∧ (handlePkg aPacket.handle = (endpointed .resident).pkg.toNat ∧ ((endpointed .resident).deliver aPacket).1 = .done
      ∧ ((endpointed .resident).peer aPacket.src).departed = false ∧ ((pod2 Peer.zero).deliver aPacket).1 = .refused 19 0 0
      ∧ (endpointed .resident).holderOf (handleCore aPacket.handle) (handleSlot aPacket.handle) = some 0
      ∧ (endpointed .saving).holderOf (handleCore aPacket.handle) (handleSlot aPacket.handle) = some 0)
    ∧ (packetRefused ((endpointed .resident).group 0) 0 true 252 4 = false ∧ winMem (((endpointed .resident).group 0).win 0) = false
      ∧ (winBase (((endpointed .resident).group 0).win 0) + 252) % 4 = 0 ∧ ctlCnt (((endpointed .resident).group 0).ctl 0) = 256
      ∧ winBase (((endpointed .resident).group 0).win 0) + 252 + 4 ≤ 256)
    ∧ (((endpointed .resident).fetchWindow 0 252 4).1.isOk = true ∧ ((pod2 Peer.zero).fetchWindow 0 252 4).1.isOk = false)
    ∧ (handlePkg 0x100000000000 ≠ warp.pkg.toNat ∧ (endpointed .saving).groupLives 0 = true ∧ warp.cmd? 1 = none)
    ∧ ((let c := { aCmd with fn := 4, x := 0x0000100000000000 }
        c.target = 1 ∧ (asking (.xfer 1 0) 0 0).fabric.any (fun r => r.peer == c.target && r.what == .xfer c.id 0) = true)
      ∧ (let c := { aCmd with fn := 5, a := 0, x := 0x0000100000000000 }
         c.target = 1 ∧ (0, 4) ∈ packetsOf c.bm c.xlen ∧ (4, 4) ∉ packetsOf c.bm c.xlen 
          ∧ [memw, warp, unresolved memw].map (fun s => match (s.storeLocal c 0 [(7, false)]).1 with
            | .ok () => none
            | .error e => some (e.reason == 0)) = [none, some false, some true]
          ∧ (asking (.xget 1 0) 0 0).fabric.any (fun r => r.peer == c.target && r.what == .xget c.id 0) = true))
    ∧ (let r : FabReq := { id := 7, peer := 0, what := .xfer 1 0, failed := 0, via := none, sentAt := 0, held := true }
       let s : State := { pod2 Peer.zero with clock := 4096, fabric := [r], cmds := [{ aCmd with fn := 4 }] }
       s.fabric.find? (fun x => x.id == 7) = some r ∧ r.sentAt + 4096 ≤ s.clock ∧ ¬ r.sentAt + 4096 ≤ 4095 ∧ r.peer = s.pkg.toNat
        ∧ r.ofCmd aCmd.id = true ∧ { r with peer := 1 }.peer ≠ s.pkg.toNat ∧ (warp.fabric.find? (fun x => x.id == 7)) = none)
    ∧ (((endpointed .saving).fetchWindow 0 252 4).1 = .error .held
      ∧ (let m : State := { endpointed .resident with
           groups := [(0, { (endpointed .resident).group 0 with epw := vset (warp.group 0).epw 0 0x8000000000000000 })]
           tlb := mapped.tlb }
         let u := { m with dies := (unresolved m).dies }
         (match (u.deliver { aPacket with off := 0 }).1 with
          | .waits own _ => own
          | _ => false) = true
         ∧ (match (u.fetchWindow 0 0 4).1 with
          | .error (.waits own _) => !own
          | _ => false) = true))
    ∧ (let s := grp (fun g => { g with cring := 0x10000000000, scratch := [(24, 64)] }) warp
       let bs := memRead (s.group 0).scratch 0 32
       let owner := fun (s : State) => (s.warpsOf 0).find? (fun w => w.pl.widx == ((bs[4]?).getD 0).toNat % 16)
       getBits (s.group 0).cring 40 4 = 1 ∧ ((3 : Dword) - (s.group 0).crcons).toInt > 2 ∧ ((1 : Dword) - (s.group 0).crcons).toInt = 1
        ∧ (owner s).any (fun h => h.r.fullS 0 && h.m.cp.length < 63) = true
        ∧ (owner { s with cur := { s.cur with r := s.cur.r.setFullS 3 false } }).any (fun h => !h.r.fullS 3) = true ∧ entryMalformed bs = false
        ∧ s.cmdRefusal 0 (ringCmd s.cur s.cur 0 (s.group 0) bs) = none ∧ (ringCmd s.cur s.cur 0 (s.group 0) bs).empty = false
        ∧ ringBad (s.group 0) (s.group 0).crcons.toNat = []
        ∧ 4 ∈ ringBad { s.group 0 with scratchBad := [4] } (s.group 0).crcons.toNat) := by
  refine ⟨?_, ?_, ?_, ?_, ?_, ?_, ?_, ?_, ?_, ?_, ?_, ?_, ?_⟩ <;> decide +kernel

/-! Errors, parity groups and the loss of a die. -/

/-- Member 0 of a group of three packages with three rows; bit 39 of `x` is DEGRADED and bit 38 REBUILDING. -/
def par (x prog : Dword) (f : Parity → Parity) : State :=
  { warp with
    peers := [(1, { Peer.zero with departed := true })]
    parity := f { Parity.zero with cfg := 0x8003010000000000 ||| x, memb := 0x210, size := 3, prog := prog } }
def errs (cfg prod : Dword) : State := { warp with fe := { FrontEnd.zero with errcfg := cfg, errprod := prod } }
theorem witness_ErrorsAndParity :
    (getBits (errs 0 0).fe.errcfg 0 4 = 0 ∧ 2 ^ getBits (errs 1 2).fe.errcfg 0 4 ≤ (errs 1 2).fe.errprod.toNat
      ∧ (errs 1 1).fe.errprod.toNat < 2 ^ getBits (errs 1 1).fe.errcfg 0 4)
    ∧ (((held .m 1).copyAt { level := 1, idx := 0 } aCopy.key).st ≠ .i ∧ warp.groupLives 0 = true ∧ 262140 + 4 ≤ (warp.group 0).scratchSize
      ∧ warp.cur.live = true ∧ 1023 < warp.cur.pl.regs)
    ∧ (let p := (par 0 0 (fun p => p)).parity
       p.rowOf 65536 = some 1 ∧ p.holder 1 ≠ p.selfIdx ∧ p.rowHasParity 1 = true ∧ p.rowHasParity 0 = true
        ∧ p.indexOf 2 = some 2 ∧ 1 ∈ p.dataMembers 0 ∧ p.rowUnderWay 1 = false
        ∧ { p with sent := [{ id := { home := 0, slice := 0, holder := 1, seq := 0 }, off := 65536 }] }.rowUnderWay 1 = true
        ∧ (par 0x8000000000 0 (fun p => p)).parity.rowHasParity 0 = false)
    ∧ (let p := par 0 0 (fun p => p)
       p.parity.rowOf 0 = some 0 ∧ p.parity.holder 0 = p.parity.selfIdx ∧ (p.peer 2).departed = false
        ∧ p.parity.applied.at (2 + 16 * 0) 0 = 0 ∧ p.parity.waiting = [] ∧ (p.homeWord (hbmWord 0)).2 = false
        ∧ (par 0 0 (fun p => { p with applied := [(2, 1)] })).parity.applied.at 2 0 = 1)
    ∧ ((par 0 0 (fun p => p)).peer 1).departed = true
    ∧ (warp.parity.rowOf 0 = none ∧ (par 0 0 (fun p => p)).parity.rowOf 65536 = some 1
      ∧ (par 0 0 (fun p => p)).parity.holder 1 ≠ (par 0 0 (fun p => p)).parity.selfIdx
      ∧ hbmKey 65536 ∈ { par 0 0 (fun p => p) with memBad := [hbmKey 65536] }.memBad)
    ∧ (let p := (par 0 0 (fun p => p)).parity
       p.on = true ∧ p.degraded = false ∧ 1 < p.g ∧ 1 ≠ p.selfIdx ∧ p.member 1 = 1
        ∧ ((List.range p.g).filter (fun x => x != 1)).head? = some p.selfIdx
        ∧ ((List.range p.g).filter (fun x => x != 0)).head? ≠ some p.selfIdx)
    ∧ (let p := (par 0xC000000000 0 (fun p => p)).parity
       p.degraded = true ∧ p.rebuilding = true ∧ 2 < p.rows ∧ p.rebuilt 2 = false ∧ p.early = [])
    ∧ (let p := (par 0xC000000000 3 (fun p => p)).parity
       p.degraded = true ∧ p.rebuilding = true ∧ p.rows ≤ p.nextRow)
    ∧ (let p := (par 0x8000000000 2 (fun p => { p with restoring := true })).parity
       p.degraded = true ∧ p.rebuilding = false ∧ p.restoring = true ∧ p.nextRow < p.rows) := by
  refine ⟨?_, ?_, ?_, ?_, ?_, ?_, ?_, ?_, ?_, ?_⟩ <;> decide +kernel
/-- A delta sent and not acknowledged, and its row, which it holds back from the rebuild. -/
theorem witness_ErrorsAndParity_safe :
    let d : DeltaId := { home := 0, slice := 0, holder := 2, seq := 0 }
    let p := par 0xC000000000 0 (fun p => { p with sent := [{ id := d, off := 0 }] })
    (∃ x ∈ p.parity.sent, x.id = d) ∧ (p.peer d.holder).departed = false
      ∧ p.parity.holder 0 = p.parity.selfIdx ∧ p.parity.holder 0 ≠ p.parity.lost ∧ p.parity.rowUnderWay 0 = true ∧ p.parity.rebuilt 0 = false
      ∧ { p.parity with sent := [] }.rowUnderWay 0 = false := by decide +kernel
theorem witness_DieLoss :
    (warp.die 15).failed = false ∧ (warp.group 0).phase = .resident ∧ dieOf (warp.group 0).core = 0 ∧ (0, warp.group 0) ∈ warp.groups
    ∧ (let s := { warp with dies := [(0, { Die.zero with failed := true, rebuild := some (1, 0), spans := [] }),
          (1, { Die.zero with failed := true, rebuild := some (0, 0),
                              spans := [{ pw := { kind := 0, peer := 0, off := 0 }, words := 1, lost := true, poison := true }] })] }
       (s.die 0).rebuild = some (1, 0) ∧ (s.die 0).spans = [] ∧ (s.die 1).rebuild = some (0, 0) ∧ (s.die 1).spans ≠ []
        ∧ (s.die 0).failed = true ∧ (s.die 2).rebuild = none) := by
  decide +kernel

/-! The event ring, Crown, and pairs. -/

def anEvent : Event := { type := 0, queue := 1, node := 0xFFFF, kseq := 0, code := 0, handle := 0, detail := 0 }
def aRaised (h : Option Nat) (c : Nat) : Raised := { at_ := c, hart := h, e := anEvent }
def ringed (prod ovf : Dword) (r : List Raised) : State :=
  { warp with clock := 1, fe := { FrontEnd.zero with evcfg := 4, evprod := prod, evovf := ovf, raised := r } }
/-- A ring with one place left, a full one, one with a lost run open, and none; an event that a warp waits for, events of two clocks,
and two of one clock that change places; and an arbiter whose turn is over. -/
theorem witness_EventRing :
    (let s := ringed 15 0 [aRaised none 0]
     s.fe.turn ≤ s.clock ∧ (aRaised none 0).at_ < s.clock ∧ s.clock ≤ (aRaised none 1).at_ ∧ s.fe.ring = some 4 ∧ s.fe.pend = false ∧ s.fe.evUsed ≠ 2 ^ 4 ∧ s.fe.evUsed < 2 ^ 4 ∧ memWf warp.hostMem = true ∧ (aRaised none 0).hart = none)
    ∧ ((ringed 16 0 []).fe.ring = some 4 ∧ (ringed 16 0 []).fe.evUsed = 2 ^ 4)
    ∧ (ringed 16 0x8000000000000000 []).fe.pend = true ∧ (ringed 15 0x8000000000000000 []).fe.pend = true
    ∧ (ringed 15 0x8000000000000000 []).fe.evUsed < 2 ^ 4 ∧ warp.fe.ring = none
    ∧ (aRaised (some 1) 0).hart = some 1 ∧ (aRaised none 0).at_ < (aRaised none 1).at_
    ∧ eventKey anEvent < eventKey { anEvent with queue := 2 } ∧ (ringed 14 0 []).fe.evUsed + 2 ≤ 2 ^ 4 ∧ (14 : Dword).toNat < 2 ^ 32
    ∧ warp.clock < { warp.fe with turn := 1 }.turn := by
  decide +kernel
def crowned (f : Crown → Crown) : State := { warp with crown := f Crown.zero }
/-- Whether an image takes is a free value (log entry 16); an image without parts does not. -/
theorem witness_Crown :
    (warp.powered = true ∧ Image.zero.parts[0]? = none ∧ { warp with powered := false }.powered = false)
    ∧ ((crowned (fun c => { c with startAt := some 0 })).crown.startAt = some 0 ∧ ¬ warp.clock / 13 ≥ 0 + 3000000000
      ∧ { warp with clock := 39000000000 }.clock / 13 ≥ 0 + 3000000000 ∧ (crowned (fun c => c)).crown.startAt = none)
    ∧ (let c := (crowned (fun c => { c with released := [0], kicks := [(0, 5)] })).crown
       0 ∈ c.released ∧ 1 ∉ c.released ∧ ¬ c.kicks.at 0 0 + c.wdog.toNat ≤ warp.clock / 13 ∧ c.startAt = none)
    ∧ (let c := (crowned (fun c => { c with released := [0], wdog := 0 })).crown
       0 ∈ c.released ∧ c.kicks.at 0 0 + c.wdog.toNat ≤ warp.clock / 13)
    ∧ (let c := (crowned (fun c => { c with fwstat := 0x10010 })).crown
       getBits c.fwstat 4 4 = 1 ∧ getBits c.fwstat 16 8 ∈ (c.slot c.inactive).accepts
        ∧ getBits c.fwstat 16 8 ∉ ({ Image.zero with accepts := [] } : Image).accepts)
    ∧ (getBits (crowned (fun c => { c with fwstat := 0x10050 })).crown.fwstat 4 4 = 5 ∧ warp.groups.map (fun p => p.2.phase) = [.resident]
      ∧ (grp (fun g => { g with phase := .saved }) warp).groups.map (fun p => p.2.phase) = [.saved])
    ∧ (let c := (crowned (fun c => { c with fwstat := 0x10020, trialAt := some 0 })).crown
       c.trialAt = some 0 ∧ getBits c.fwstat 4 4 = 2 ∧ warp.clock / 13 < 0 + c.trial.toNat ∧ 0 + ({ c with trial := 0 } : Crown).trial.toNat ≤ warp.clock / 13)
    ∧ (let c := (crowned (fun c => { c with negotiated := true, meas := [(3, 7)] })).crown
       c.negotiated = true ∧ c.meas.filter (fun x => x.1 == 3) = [(3, 7)] ∧ c.meas.filter (fun x => x.1 == 4) = []
        ∧ (crowned (fun c => c)).crown.negotiated = false) := by
  refine ⟨?_, ?_, ?_, ?_, ?_, ?_, ?_, ?_⟩ <;> decide +kernel
/-- An update's work record that the running image can read back. -/
theorem witness_Crown_record :
    let c := crowned (fun c => { c with fwstat := 0x10020, trialAt := some 0, trial := 9, slotB := { Image.zero with accepts := [1] } })
    let s : State := { c with fe := { c.fe with record := some { version := 1, queues := [], pending := [], replays := [] } } }
    s.fe.record.any (fun w => (s.crown.slot s.crown.inactive).accepts.contains w.version) = true := by decide +kernel
/-- A legal pair with both, one and no slot selecting lanes; an illegal one; an empty register to wait for and one that traps; and
a second word with no decoding, and one that is ILLEGAL for its registers alone. -/
theorem witness_Pairs :
    let a : V3 := { v3 with ty := 1 }
    let b : V3 := { v3 with vd := 5, ty := 1, g := { gp := 1, gs := false } }
    let w0 := (encode (.vadd a)).getD 0
    let w1 := (encode (.vsub b)).getD 0
    let s := withV 1 5 (stacked 0 1)
    (decode w0 = .ok (.vadd a) ∧ decode w1 = .ok (.vsub b) ∧ pairClass w0 = true ∧ pairClass w1 = true ∧ (vecFn (.vadd a)).isSome = true
      ∧ (vecFn (.vsub b)).isSome = true ∧ settled s.cur = true ∧ illegalHere (.vadd a) s = none ∧ illegalHere (.vsub b) s = none)
    ∧ pairLegal (.vadd a) (.vsub b) = true ∧ pairLegal (.vadd a) (.vsub { b with vd := 4 }) = false
    ∧ (loadWait (.vadd a) s.cur = false ∧ laneMask s.cur a.g ≠ 0 ∧ laneMask s.cur b.g ≠ 0 ∧ laneMask (withV 1 5 warp).cur b.g = 0)
    ∧ (∀ i ∈ [Instr.vadd a, .vsub b], emptyTrap (uses i) s.cur.r = false ∧ blockWait (uses i) s.cur.r = false ∧ sourceTrap (uses i) s = none
        ∧ (vecFn i).any (fun x => (x.2 s.cur).trap.isNone && !flgTraps s.cur.y.flg (x.2 s.cur).flags) = true)
    ∧ (let e := withR s (fun r => r.setFullV 0 false)
       blockWait (uses (.vadd a)) e.cur.r = true ∧ emptyTrap (uses (.vadd { a with ma := true })) e.cur.r = true)
    ∧ (sourceTrap (uses (.vadd a)) (withV 3 5 (stacked 0 1))).isSome = true
    ∧ (let x : BitVec 96 := w1 ||| 1
       pairClass x = true ∧ (decode x).isOk = false
        ∧ (let n := { s with cur := { s.cur with pl := { s.cur.pl with regs := 5 } } }
           illegalHere (.vadd a) n = none ∧ (illegalHere (.vsub b) n).isSome = true)) := by
  refine ⟨?_, ?_, ?_, ?_, ?_, ?_, ?_⟩ <;> decide +kernel
/-- R62: a result that traps in a slot of a pair. -/
theorem witness_Pairs_trap :
    let i : Instr := .vtagrSet { v3 with vb := 6, sub := 1, bs := true }
    pairClass ((encode i).getD 0) = true ∧ illegalHere i (with67 0xB00 0) = none
      ∧ (vecFn i).any (fun x => (x.2 (with67 0xB00 0).cur).trap.isSome) = true
      ∧ pairLegal i (.vmov { v3 with vd := 5 }) = true ∧ pairLegal (.vmov { v3 with vd := 5 }) i = true := by decide +kernel

/-! Scheduling, gangs and queues. -/

def ready0 : State := { atLine (mkLine (List.replicate 5 yieldWord) 0 0) true with picked := false }
theorem witness_Scheduling :
    (let after := fun (u : IssueUnit) =>
       let k : State := { ready0.tick.unitClock u with picked := false }
       (k, k.reachTable (k.allHarts.filter (fun h => servedBy u h)))
     let ready := fun (u : IssueUnit) => ((after u).2.allHarts.filter (fun h => servedBy u h && (after u).2.ready h)).map (fun h => h.id)
     ready0.powered = true ∧ (after (.sched 0 0)).1.unitOpen (.sched 0 0) = true ∧ ready (.sched 0 0) = [1] ∧ ready (.sched 0 1) = []
      ∧ { (after (.sched 0 0)).1 with cores := [(0, { Core.zero with busyUntil := 49 })] }.unitOpen (.sched 0 0) = false)
    ∧ (let a := sib (fun h => { h with sch := { h.sch with unpicked := 64 } })
       64 ≤ a.sch.unpicked ∧ warp.cur.sch.unpicked < 64 ∧ warp.classOfWarp warp.cur ≤ 7)
    ∧ (let s := lnc (fun l => { l with pri := 7 }) warp
       s.classOfWarp { warp.cur with pl := { warp.cur.pl with launch := 1 } } < s.classOfWarp s.cur ∧ s.classOfWarp s.cur = 7)
    ∧ (State.reset.waitingLine 0 0 0 = [] ∧ (mapped.waitingLine 0 0 0).map (fun h => h.id) = [1] ∧ (mapped.die 0).heldLines ≤ 1024
      ∧ (mapped.countMisses.fetchLine 0 0 0).1.isOk = true ∧ (warp.countMisses.fetchLine 0 0 0).1.isOk = false
      ∧ mapped.countMisses.fetchWaits 0 0 0 = [] ∧ (unresolved mapped).countMisses.fetchWaits 0 0 0 ≠ []
      ∧ (unresolved mapped).waitingLine 0 0 0 ≠ [] ∧ warp.countMisses.fetchWaits 0 0 0 = [] ∧ mapped.cur.c.missed = none ∧ mapped.harts = []
      ∧ (warp.waitingLine 0 0 0).map (fun h => h.id) = [1] ∧ settled warp.cur = true) := by
  refine ⟨?_, ?_, ?_, ?_⟩ <;> decide +kernel
/-- A core whose sequencer is frozen, at the second pick of its clock; and a line that PFH asked for. -/
theorem witness_Scheduling_frozen :
    let f : State := { mapped with cores := [(0, { Core.zero with turn := 1 })] }
    (f.core 0).turn &&& 1 ≠ 0 ∧ (f.core 0).turn &&& 2 = 0 ∧ f.allHarts.any (fun h => h.role == .warp && h.pl.core == 0 && (f.missing h).isSome) = true
      ∧ ready0.allHarts.any (fun h => h.role == .warp && h.pl.core == 0 && (ready0.missing h).isSome) = false
      ∧ (let x : Prefetch := { asid := 0, addr := 64, core := 0, held := [0] }
         let u : State := { mapped with dies := [(0, { Die.zero with ahead := [] })] }
         { mapped with dies := [(0, { Die.zero with ahead := [x] })] }.waitingLine 0 0 64 = [] ∧ dieOf x.core = 0
          ∧ u.fetchWaits 0 0 64 = [] ∧ (u.fetchLine 0 0 64).1.isOk = true ∧ ({ u with tlb := [] }.fetchLine 0 0 64).1.isOk = false) := by
  decide +kernel

/-- The package with one launch whose seed is pending, or with a pending range of one gang. -/
def launching (f : Launch → Launch) : State :=
  { State.reset with launches := [(0, f { Launch.zero with complete := false })] }
def ranged : State := launching (fun l => { l with seedPlaced := true, pending := [.range 0 1 0 .core 0] })
/-- The gang of the warp, its workgroup in a phase. -/
def phased (f : Group → Group) : State := grp f ganged
def resuming : State :=
  { launching (fun l => { l with seedPlaced := true, pending := [.saved 0 0] }) with
    groups := [(0, { Group.zero with seed := false, regs := 8, phase := .saved })], gangs := [(0, { Gang.zero with groups := [0] })] }
theorem witness_Gangs :
    (State.reset.streamsDistinct ∧ State.reset.turn 0 = false ∧ (launching (fun l => l)).turn 0 = true
      ∧ ((launching (fun l => l)).want 0).any (fun w => (launching (fun l => l)).sitesOk 0 w [{ core := 511, slot := 31 }]) = true
      ∧ ((launching (fun l => l)).want 0).any (fun w => !(launching (fun l => l)).sitesOk 0 w [{ core := 512, slot := 0 }]) = true)
    ∧ (ranged.turn 0 = true ∧ (ranged.want 0).any (fun w => ranged.sitesOk 0 w [{ core := 0, slot := 0 }]) = true)
    ∧ (State.reset.oldestLaunch = none ∧ (launching (fun l => l)).oldestLaunch = some 0 ∧ (launching (fun l => l)).fe.hold = none
      ∧ (launching (fun l => l)).clock < 0 + 262144
      ∧ ((launching (fun l => l)).want 0).any (fun w => decide (w.count ≤ ((launching (fun l => l)).unitCores w.level 0).length * capacity w.need 32 [])) = true
      ∧ (let s : State := { launching (fun l => l) with clock := 262144, fe := { FrontEnd.zero with oldest := [0, 0] } }
         s.fe.oldest = s.oldestName ∧ s.fe.oldestAt + 262144 ≤ s.clock ∧ s.fe.hold = none))
    ∧ (let s : State := { ganged with
         queues := [(0, { Queue.zero with qcfg := 1, slice := 1024 })]
         launches := [(0, ganged.launch 0), (1, { Launch.zero with queue := 1, complete := false, seedPlaced := true, pending := [.range 0 1 0 .core 0], hdr := { Header.zero with regs := 100000 } })] }
       State.reset.slicing 0 = false ∧ s.slicing 0 = true ∧ getBits (s.queue 0).qcfg 0 32 * 1024 ≤ (s.queue 0).slice
        ∧ (s.want 1).isSome = true ∧ (s.setQueue 0 { s.queue 0 with slice := 0 }).placeable 1 = false
        ∧ (s.gang 0).pinned = false ∧ s.gangIn 0 .resident ≠ [] ∧ (s.launch 0).pri ≤ (s.launch 1).pri)
    ∧ (State.reset.gangIn 0 .resident = [] ∧ ganged.gangIn 0 .resident = [0] ∧ ganged.shadowFree [0] = true ∧ ganged.picked = false
      ∧ ganged.cur.role = .warp ∧ ganged.cur.pl.group = 0
      ∧ { ganged with groups := [(0, ganged.group 0), (1, { ganged.group 0 with phase := .saving, swapDone := true, gang := 1 })] }.shadowFree [0] = false)
    ∧ (let s := phased (fun g => { g with phase := .saving })
       (s.gangIn 0 .saving).filter (fun k => !(s.group k).swapDone) = [0] ∧ (s.core 0).busyUntil ≤ (s.core 0).cclk
        ∧ (let c := { s with cores := [(0, { Core.zero with busyUntil := 49 })] }.core 0; c.cclk < c.busyUntil))
    ∧ (let t := phased (fun g => { g with phase := .saving, swapDone := true })
       let s := { t with cur := { t.cur with pl := { t.cur.pl with regs := 8 } } }
       (s.group 0).spilled = false ∧ (s.warpsOf 0).all (fun h => h.m.returning.isEmpty && regsRead (s.group 0) h) = true
        ∧ s.gangs.all (fun p => !p.2.saveAsked) = true)
    ∧ (let s := phased (fun g => { g with phase := .saving, swapDone := true, spilled := true })
       s.gangIn 0 .saving = [0] ∧ s.gangIn 0 .resident = [] ∧ (s.onHart 1 State.finishWarp).savedNow 0 = true
        ∧ (phased (fun g => { g with phase := .saving })).savedNow 0 = false)
    ∧ ((resuming.launch 0).pending = [.saved 0 0] ∧ resuming.turn 0 = true
      ∧ (resuming.want 0).any (fun w => resuming.sitesOk 0 w [{ core := 0, slot := 0 }] && decide (w.saved = [0])) = true
      ∧ (resuming.group 0).bound = false) := by
  refine ⟨⟨⟨by decide +kernel, by decide +kernel⟩, ?_, ?_, ?_, ?_⟩, ?_, ?_, ?_, ?_, ?_, ?_, ?_, ?_⟩ <;> decide +kernel

/-- The gang's record bears a context version that the running image accepts, or none that it does. -/
def accepting (l : List Nat) : State :=
  let m : Image := { Image.zero with accepts := l }
  { resuming with crown := { Crown.zero with golden := m, slotA := m, slotB := m } }
theorem witness_Gangs_resume : (accepting [resuming.recNat 0 4 2]).recordOk 0 = true ∧ (accepting []).recordOk 0 = false := by
  refine ⟨?_, rfl⟩
  have h : (accepting [resuming.recNat 0 4 2]).recNat 0 4 2 = resuming.recNat 0 4 2 := rfl
  have g : (accepting [resuming.recNat 0 4 2]).crown.running.accepts = [resuming.recNat 0 4 2] := rfl
  rw [State.recordOk, g, h]; simp

/-- A kick of 64 bytes: its type, sequence number 5 and target. -/
def kickOf (type target : Nat) : List Byte := leBytes 4 type ++ leBytes 4 5 ++ leBytes 8 target ++ List.replicate 48 0
def kicked (b : List Byte) : State :=
  { mapped with queues := [(3, { Queue.zero with qcfg := 0x8000000000000000, fifo := [b] })] }
/-- An object of one node of a type, with its callee: its header names one node at offset 64. -/
def objectOf (type callee flags : Nat) : List Byte :=
  List.replicate 6 0 ++ leBytes 2 1 ++ List.replicate 24 0 ++ leBytes 8 64 ++ List.replicate 24 0
    ++ (List.replicate 24 0 ++ [5] ++ List.replicate 5 0 ++ [1, 1, 1, 0] ++ leBytes 2 8 ++ List.replicate 13 0 ++ [BitVec.ofNat 8 flags]
      ++ List.replicate 14 0 ++ leBytes 1 type ++ List.replicate 31 0 ++ leBytes 8 callee ++ List.replicate 24 0)
def aGraph (type callee flags : Nat) : Graph := { Graph.zero with used := true, image := objectOf type callee flags }
/-- HBM with an object at address 0, and address space 0 whose first GiB is mapped to the first GiB of HBM: its entry of the table
at 0x100000, its root at 0x20000 and a leaf of level 2 at 0x40000. -/
def graphMem (obj : List Byte) : List Host.Cell :=
  let put := fun (m : List Host.Cell) (k x : Nat) => memWrite m (hbmKey k) (leBytes 8 x)
  put (put (put (memWrite [] (hbmKey 0) obj) 0x20000 0x40001) 0x40000 0x13) 0x100000 0x20001
/-- The graph registered in entry 0, and running in replay 9 where `r` says so. -/
def running (type callee flags : Nat) (x : Replay → Replay) : State :=
  { kicked (kickOf 0 0) with
    mem := graphMem (objectOf type callee flags)
    fe := { FrontEnd.zero with astbase := 0x100000 }
    graphs := [(0, aGraph type callee flags), (1, aGraph 2 0 0)]
    replays := [(9, x { Replay.zero with ended := false, nodes := [.idle], path := [0], queue := 3 })] }
def registered : State := { running 2 0 0 (fun x => x) with replays := [] }
theorem witness_FrontEnd_kicks :
    (let x := ({ warp with queues := [(3, { Queue.zero with qcfg := 0x8000000000000000 })] } : State).queue 3
     (kickOf 0 0).length = 64 ∧ bit x.qcfg 63 = true ∧ getBits x.qcfg 61 2 = 0 ∧ x.fifo.length < 64 ∧ 64 ≤ (List.replicate 64 (kickOf 0 0)).length)
    ∧ (2 ^ getBits (warp.queue 3).qring 0 4 < ((2 : Word).toNat + 2 ^ 32 - getBits (warp.queue 3).qidx 32 32) % 2 ^ 32
      ∧ ¬ 2 ^ getBits (warp.queue 3).qring 0 4 < ((1 : Word).toNat + 2 ^ 32 - getBits (warp.queue 3).qidx 32 32) % 2 ^ 32)
    ∧ (warp.nextKick 3 = none ∧ (kicked (kickOf 1 0)).nextKick 3 = some (some (kickOf 1 0)))
    ∧ ([0, 1, 2].all (fun t => kickType (kickOf t 0) == t && !kickBad (kickOf t 0)) = true ∧ kickBad (kickOf 3 0) = true ∧ kickType (kickOf 3 0) = 3
      ∧ [1, 2].all (fun t => kickType (kickOf (t + 256) 0) == t && kickBad (kickOf (t + 256) 0)) = true)
    ∧ (kickTarget (kickOf 1 1)).toNat % 64 ≠ 0
    ∧ ((kicked (kickOf 2 0)).graphOf 0 = none ∧ registered.graphOf 0 = some 0 ∧ registered.inReplay 0 = false
      ∧ (running 2 0 0 (fun x => x)).inReplay 0 = true)
    ∧ ((kicked (kickOf 0 0)).queueBusy 3 = false ∧ (running 2 0 0 (fun x => x)).queueBusy 3 = true)
    ∧ ((running 2 0 0 (fun x => { x with queue := 4 })).queueBusy 3 = false ∧ (running 2 0 0 (fun x => { x with queue := 4 })).graphBusy 3 0 = true)
    ∧ (registered.graphBusy 3 0 = false ∧ field (kickOf 0 0) 24 2 = 0 ∧ field (kickOf 0 0) 26 1 = 0 ∧ 0 < nodeCount (registered.graph 0).image
      ∧ predecessors (registered.graph 0).image 0 = []) := by
  refine ⟨?_, ?_, ?_, ?_, ?_, ?_, ?_, ?_, ?_⟩ <;> decide +kernel
/-- Patches: a misaligned and an unreadable table, an inline patch that names a parameter word and one that does not. -/
theorem witness_FrontEnd_patches :
    let image := ((objectOf 2 0 0).set 146 3).set 152 8
    let b := fun (table n inl : Nat) => leBytes 4 0 ++ leBytes 4 5 ++ leBytes 8 0 ++ leBytes 8 table ++ leBytes 2 n ++ leBytes 1 inl
      ++ List.replicate 21 0 ++ leBytes 16 0
    let s : State := { registered with mem := graphMem image, graphs := [(0, { aGraph 2 0 0 with image := image })] }
    let p : Patch := { node := 0, zero := true, off := 0, val := List.replicate 8 7 }
    (field (b 4 1 0) 24 2 = 1 ∧ field (b 4 1 0) 16 8 % 8 ≠ 0 ∧ kickBad (b 4 1 0) = false)
    ∧ ((s.feRead 0 [0, 2] (BitVec.ofNat 64 (2 ^ 40)) 16) = none ∧ (s.feRead 0 [0, 2] 0x1000 16).isSome = true)
    ∧ (field (b 0 0 1) 26 1 = 1 ∧ (gnode image 0).param = 0x30000 ∧ p.off + 8 ≤ (gnode image 0).paramsz ∧ nodeCount image = 1
        ∧ (s.applyPatches 0 image [p]).isSome = true ∧ { p with off := 8 }.off + 8 > (gnode image 0).paramsz
        ∧ s.graphBusy 3 0 = false ∧ predecessors image 0 = []
        ∧ (s.feWord 0 [0, 1, 2] 0x30000).isSome = true ∧ ((0x30000 : Dword) + BitVec.ofNat 64 p.off).toNat % 4 = 0) := by
  refine ⟨?_, ?_, ?_⟩ <;> decide +kernel
/-- Nodes that may start: of each type, with a launch that is refused and one that is not, at each depth; and launches that end. -/
theorem witness_FrontEnd_nodes :
    (∀ p ∈ [(0, 0, 0), (0, 0, 1), (1, 0, 0), (1, 1, 0), (1, 7, 0), (2, 0, 0)], let s := running p.1 p.2.1 p.2.2 (fun x => x)
      (s.replay 9).ended = false ∧ s.canStart 9 0 = true ∧ s.fe.quiesce = false ∧ s.recovering = false ∧ s.graphIntact 0 = true
        ∧ (gnode (s.imageOf 9) 0).type = p.1 ∧ 0 < (s.replay 9).nodes.length)
    ∧ ({ running 2 0 0 (fun x => x) with mem := graphMem (objectOf 1 0 0) }.graphIntact 0 = false)
    ∧ (let s := running 0 0 0 (fun x => x)
       s.launchError (s.queue 3) (launchHeader (gnode (s.imageOf 9) 0).head 0) = none)
    ∧ (let s := running 0 0 1 (fun x => x)
       s.launchError (s.queue 3) (launchHeader (gnode (s.imageOf 9) 0).head 0) = some 11)
    ∧ ((running 1 1 0 (fun x => { x with depth := 4 })).replay 9).depth = 4
    ∧ ((running 1 7 0 (fun x => x)).graphOf 7 = none ∧ (running 1 0 0 (fun x => x)).graphOf 0 = some 0 ∧ 0 ∈ ((running 1 0 0 (fun x => x)).replay 9).path
      ∧ (running 1 1 0 (fun x => x)).graphOf 1 = some 1 ∧ 1 ∉ ((running 1 1 0 (fun x => x)).replay 9).path
      ∧ (running 1 1 0 (fun x => x)).nextId ≠ 9)
    ∧ (let s : State := { running 2 0 0 (fun x => x) with
         cur := Hart.idle, groups := [], launches := [(1, { Launch.zero with complete := false, seedPlaced := true, replay := 9 })] }
       (s.launch 1).complete = false ∧ (s.launch 1).counter = 0 ∧ s.cmds = [] ∧ s.copies = [] ∧ (s.launch 1).node < (s.replay 9).nodes.length
        ∧ s.cur.m.stores = [] ∧ s.harts = []) := by
  refine ⟨?_, ?_, ?_, ?_, ?_, ?_, ?_⟩ <;> decide +kernel

end Sys2Proof.Tests

end
end

section
/-!
PROOFS. What the proofs about registers share: masks over lanes, lanes written in turn, and the instructions that end with one
scalar register, one vector register or one predicate written.
-/

namespace Sys2Proof

/-! ### Masks over lanes (R8) -/

/-- A sum of distinct powers of two has exactly their bits. -/
theorem sum_pow_lt_and_testBit (p : Nat → Bool) (n : Nat) :
    let x := (List.range n).foldl (fun acc l => if p l then acc + 2 ^ l else acc) 0
    x < 2 ^ n ∧ ∀ j, x.testBit j = (decide (j < n) && p j) := by
  induction n with
  | zero => simp
  | succ n ih =>
    obtain ⟨hlt, hbit⟩ := ih
    simp only [List.range_succ, List.foldl_append, List.foldl_cons, List.foldl_nil]
    set x := (List.range n).foldl (fun acc l => if p l then acc + 2 ^ l else acc) 0
    have hx : ∀ j, n ≤ j → x.testBit j = false := fun j hj => by simp [hbit, hj]
    cases hp : p n with
    | false =>
      refine ⟨by simp only [Bool.false_eq_true, if_false]; omega, fun j => ?_⟩
      rcases Nat.lt_trichotomy j n with h | rfl | h
      · simp [hbit, h, Nat.lt_succ_of_lt h]
      · simp [hbit, hp]
      · simp [hbit, Nat.not_lt.mpr h.le, Nat.not_lt.mpr (Nat.succ_le_of_lt h)]
    | true =>
      refine ⟨by simp only [if_true]; omega, fun j => ?_⟩
      simp only [if_true]
      rcases Nat.lt_trichotomy j n with h | rfl | h
      · rw [Nat.add_comm, Nat.testBit_two_pow_add_gt h, hbit]
        simp [h, Nat.lt_succ_of_lt h]
      · rw [Nat.add_comm, Nat.testBit_two_pow_add_eq, hx _ le_rfl]
        simp [hp]
      · rw [Nat.testBit_lt_two_pow (Nat.lt_of_lt_of_le (by omega) (Nat.pow_le_pow_right two_pos h))]
        simp [Nat.not_lt.mpr (Nat.succ_le_of_lt h)]

theorem getLsbD_maskOf (p : Nat → Bool) (l : Nat) : (maskOf p).getLsbD l = (decide (l < 32) && p l) := by
  obtain ⟨-, hbit⟩ := sum_pow_lt_and_testBit p 32
  rw [maskOf, BitVec.getLsbD_ofNat, hbit, ← Bool.and_assoc, Bool.and_self]

theorem maskOf_beq_lane (q : Nat) : maskOf (fun l => l == q) = 1#32 <<< q := by
  apply BitVec.eq_of_getLsbD_eq
  intro l hl
  have hbits : l = q ↔ ¬ l < q ∧ l - q = 0 := by omega
  rw [getLsbD_maskOf, BitVec.getLsbD_shiftLeft, BitVec.getLsbD_one, Bool.eq_iff_iff]
  simp [hl, hbits]

theorem mem_lanesOf {m : Word} {l : Nat} : l ∈ lanesOf m ↔ l < 32 ∧ m.getLsbD l = true := by simp [lanesOf]

/-- The lowest lane of a mask. -/
theorem headD_lanesOf (m : Word) (d : Nat) :
    (lanesOf m).headD d = ((List.range 32).find? (fun l => m.getLsbD l)).getD d := by
  rw [List.headD_eq_head?_getD, lanesOf, List.head?_filter]

theorem length_lanesOf (m : Word) : (lanesOf m).length = (List.range 32).countP (fun l => m.getLsbD l) :=
  List.countP_eq_length_filter.symm

/-- A lane is the lowest of a mask when it stands in it and no lower one does. -/
theorem headD_lanesOf_eq_iff {m : Word} {l : Nat} (h : l < 32) :
    (lanesOf m).headD 32 = l ↔ m.getLsbD l = true ∧ ∀ q, q < l → m.getLsbD q = false := by
  rw [headD_lanesOf]
  cases hf : (List.range 32).find? (fun l => m.getLsbD l) with
  | none =>
    have := List.find?_eq_none.mp hf l (by simpa using h)
    simp only [Option.getD_none]
    constructor
    · omega
    · rintro ⟨hl, -⟩; exact absurd hl this
  | some k =>
    obtain ⟨hk, hk32, hlow⟩ := List.find?_range_eq_some.mp hf
    simp only [Option.getD_some]
    constructor
    · rintro rfl; exact ⟨hk, fun q hq => by simpa using hlow q hq⟩
    · rintro ⟨hl, hq⟩
      rcases Nat.lt_trichotomy k l with hkl | rfl | hkl
      · exact absurd hk (by simp [hq k hkl])
      · rfl
      · exact absurd hl (by simpa using hlow l hkl)

namespace Machine

/-! ### Lanes written in turn -/

theorem vget_foldl_vset {α : Type} {n : Nat} (op : Nat → α) (d : α) (ls : List Nat) (v : Vector α n) (j : Nat) (h : j < n) :
    vget (ls.foldl (fun v l => vset v l (op l)) v) j d = if j ∈ ls then op j else vget v j d := by
  induction ls generalizing v with
  | nil => simp
  | cons l ls ih =>
    rw [List.foldl_cons, ih]
    by_cases hj : j = l
    · subst hj; simp [vget_vset_same v _ d h]
    · simp [hj, vget_vset_other v _ d hj]

/-! ### An instruction that ends with its registers written -/

theorem State.addFlags_zero (s : State) : s.addFlags 0 = s := by
  simp [State.addFlags, State.setFlg, flgOr]

theorem flgTraps_zero (flg : Dword) : flgTraps flg 0 = false := by simp [flgTraps]

theorem othersKept_of_mapRegs {g : Regs → Regs} {s t : State} (h : OthersKept (s.mapRegs g) t) : OthersKept s t := by
  have hcur := congrArg (fun u : State => { u with cur := s.cur }) h
  exact hcur

/-- Retirement after a change of the registers: the next slot, the new registers, and nothing else. -/
theorem retire_mapRegs (g : Regs → Regs) (s : State) :
    ∃ t, retire (s.mapRegs g) = .next t ∧ t.cur.r = g s.cur.r ∧ Stepped s t ∧ OthersKept s t ∧ HartKept s.cur t.cur := by
  obtain ⟨t, ht, hstep, hothers, hhart, hr, -⟩ := retire_eq (s.mapRegs g)
  exact ⟨t, ht, hr, hstep, othersKept_of_mapRegs hothers, hhart⟩

/-- A scalar register written as the instruction's one effect. -/
theorem retire_setS {d : Nat} (hd : d < 128) (x : Dword) (s : State) :
    ∃ t, retire (s.mapRegs (fun r => r.setS d x)) = .next t ∧ WroteS d x s t := by
  obtain ⟨t, ht, hr, hstep, hothers, hhart⟩ := retire_mapRegs (fun r => r.setS d x) s
  refine ⟨t, ht, fun h0 => ?_, fun h0 => ?_, ?_, hstep, hothers, hhart⟩
  · rw [hr, Regs.getS_setS_same _ _ h0 hd]
  · rw [hr, h0]; rfl
  · rw [hr]; exact setS_kept _ _ _

/-- A predicate written as the instruction's one effect. -/
theorem retire_setP {d : Nat} (hd : d < 16) (x : Word) (s : State) :
    ∃ t, retire (s.mapRegs (fun r => r.setP d x)) = .next t ∧ WroteP d x s t := by
  obtain ⟨t, ht, hr, hstep, hothers, hhart⟩ := retire_mapRegs (fun r => r.setP d x) s
  refine ⟨t, ht, fun h0 => ?_, fun h0 => ?_, ?_, hstep, hothers, hhart⟩
  · rw [hr, Regs.getP_setP_same _ _ h0 hd]
  · rw [hr, h0]; rfl
  · rw [hr]; exact setP_kept _ _ _

section
variable {i : Instr} {g : Guard} {s : State}

/-- An instruction that passes its checks and writes one scalar register. -/
theorem endsS_of_setS {k : State → Out} {d : Nat} {x : Dword} (h : Issues i g s) (he : exec i s = issue i g s k)
    (hk : k s = retire (s.mapRegs (fun r => r.setS d x))) (hd : d < 128) : EndsS i d x s := by
  obtain ⟨t, ht, hw⟩ := retire_setS hd x s
  exact ⟨t, by rw [he, issue_of_issues k h, hk, ht], hw⟩

/-- A vector instruction that raises no flag and takes no trap ends with its result written. -/
theorem vecExec_writes {k : Hart → VRes} (h : Issues i g s) (he : exec i s = vecExec i g k s) (ht : (k s.cur).trap = none)
    (hf : (k s.cur).flags = 0) : exec i s = retire (s.mapRegs (k s.cur).write) := by
  rw [he, vecExec_of_issues h ht (by rw [hf, flgTraps_zero]), hf, State.addFlags_zero]

/-- A vector instruction whose result is one predicate. -/
theorem endsP_of_result {k : Hart → VRes} {d : BitVec 4} {x : Word} (h : Issues i g s) (he : exec i s = vecExec i g k s)
    (hk : k s.cur = { pd := some (d.toNat, x) }) : EndsP i d.toNat x s := by
  obtain ⟨t, ht, hw⟩ := retire_setP d.isLt x s
  refine ⟨t, ?_, hw⟩
  rw [vecExec_writes h he (by rw [hk]) (by rw [hk]), hk]
  exact ht

end

/-! ### A vector register written lane by lane -/

@[simp] theorem laneRes_trap (h : Hart) (d : BitVec 10) (m : Word) (tag : BitVec 12) (op : Nat → Word) :
    (laneRes h d m tag op).trap = none := rfl
@[simp] theorem laneRes_flags (h : Hart) (d : BitVec 10) (m : Word) (tag : BitVec 12) (op : Nat → Word) :
    (laneRes h d m tag op).flags = 0 := rfl

/-- The register that `laneRes` writes over `x`. -/
def VReg.withLanes (x : VReg) (m : Word) (tag : BitVec 12) (op : Nat → Word) : VReg :=
  { x with lanes := (lanesOf m).foldl (fun v l => vset v l (op l)) x.lanes, tag := tag }

theorem VReg.lane_withLanes_selected (x : VReg) {m : Word} (tag : BitVec 12) (op : Nat → Word) {l : Nat}
    (h : m.getLsbD l = true) : (x.withLanes m tag op).lane l = op l := by
  have hl : l < 32 := BitVec.lt_of_getLsbD h
  exact (vget_foldl_vset op 0 _ _ l hl).trans (if_pos (mem_lanesOf.mpr ⟨hl, h⟩))

theorem VReg.lane_withLanes_masked (x : VReg) {m : Word} (tag : BitVec 12) (op : Nat → Word) {l : Nat}
    (h : m.getLsbD l = false) : (x.withLanes m tag op).lane l = x.lane l := by
  by_cases hl : l < 32
  · exact (vget_foldl_vset op 0 _ _ l hl).trans (if_neg (by simp [mem_lanesOf, h]))
  · simp [VReg.lane, vget, hl]

theorem laneRes_write (h : Hart) (d : BitVec 10) (m : Word) (tag : BitVec 12) (op : Nat → Word) :
    (laneRes h d m tag op).write h.r = h.r.setV d.toNat ((h.r.getV d.toNat).withLanes m tag op) := rfl

theorem HartKept.y_eq {h k : Hart} (hk : HartKept h k) : k.y = h.y := by
  obtain ⟨-, -, -, -, hy, -⟩ := hk
  exact hy

theorem hartKeptButFlags_of_kept {h k : Hart} (hk : HartKept h k) : HartKeptButFlags h k := by
  have hy : { k.y with flg := h.y.flg } = k.y := by rw [hk.y_eq]
  rw [HartKeptButFlags, hy]
  exact hk

/-- A vector instruction whose result is one vector register, written lane by lane. -/
theorem endsV_of_laneRes {i : Instr} {g : Guard} {k : Hart → VRes} {s : State} {d : BitVec 10} {m : Word} {tag : BitVec 12}
    {op : Nat → Word} (h : Issues i g s) (he : exec i s = vecExec i g k s) (hk : k s.cur = laneRes s.cur d m tag op) :
    EndsV i d.toNat tag m op s := by
  obtain ⟨t, ht, hr, hstep, hothers, hhart⟩ := retire_mapRegs (k s.cur).write s
  rw [← vecExec_writes h he (by rw [hk, laneRes_trap]) (by rw [hk, laneRes_flags])] at ht
  rw [hk, laneRes_write] at hr
  have hd : t.cur.r.getV d.toNat = (s.cur.r.getV d.toNat).withLanes m tag op := by
    rw [hr, Regs.getV_setV_same _ _ d.isLt]
  have hkept : RegsKept [] [d.toNat] [] [] s.cur.r t.cur.r := by
    rw [hr]; exact writeV_kept _ _ _ _
  have hy : t.cur.y = s.cur.y := hhart.y_eq
  refine ⟨t, ht, ⟨by rw [hd]; rfl, by rw [hd]; rfl, fun l hl => ?_, ?_, hkept, hstep, hothers, ?_⟩, fun l _ hl => ?_⟩
  · rw [hd, VReg.lane_withLanes_masked _ _ _ hl]
  · rw [hy]; simp
  · exact hartKeptButFlags_of_kept hhart
  · rw [hd, VReg.lane_withLanes_selected _ _ _ hl]

end Machine
end Sys2Proof
end

section
/-!
PROOFS. SDIV, SDIVN and SREM (R97, R99): the integer operations of the model are those of bit vectors at the width of ST.
-/

namespace Sys2Proof.Machine

/-! ### Values at the width of ST (R97) -/

theorem stWidth_pos (t : STy) : 0 < stWidth t := by cases t <;> decide
theorem stWidth_le (t : STy) : stWidth t ≤ 64 := by cases t <;> decide

theorem signedOf_eq_toInt {w : Nat} (hw : 0 < w) (x : Nat) : signedOf w x = (BitVec.ofNat w x).toInt := by
  have hpow : 2 ^ w = 2 * 2 ^ (w - 1) := by rw [← Nat.pow_succ', Nat.succ_eq_add_one, Nat.sub_add_cancel hw]
  have hhalf : x % 2 ^ w < 2 ^ (w - 1) ↔ 2 * (x % 2 ^ w) < 2 ^ w := by omega
  rw [signedOf, BitVec.toInt_eq_toNat_cond, BitVec.toNat_ofNat, if_congr hhalf rfl rfl]
  push_cast
  rfl

/-- The integer that an operand stands for (R97). -/
theorem stArg_eq (t : STy) (x : Dword) :
    stArg t x = if WellFormed.stSigned t then (stLow t x).toInt else ((stLow t x).toNat : Int) := by
  rw [stArg, valOf, signedOf_eq_toInt (stWidth_pos t), BitVec.ofNat_toNat, stLow, BitVec.toNat_setWidth]

theorem wrapTo_eq_toNat (w : Nat) (x : Int) : wrapTo w x = (BitVec.ofInt w x).toNat := by
  rw [wrapTo, BitVec.toNat_ofInt]; push_cast; rfl

/-- A result is wrapped to the width of ST and extended (R97). -/
theorem stExt_eq (t : STy) (x : Int) : stExt t x = stBack t (BitVec.ofInt (stWidth t) x) := by
  rw [stExt, valOf, wrapTo_eq_toNat, signedOf_eq_toInt (stWidth_pos t), BitVec.ofNat_toNat, BitVec.setWidth_eq, stBack]
  split
  · rfl
  · rw [Nat.mod_eq_of_lt (BitVec.isLt _), BitVec.ofInt_natCast, BitVec.ofNat_toNat]

/-- A form of two scalar sources ends with the wrapped result of its operation (R97). -/
theorem endsS_of_scalarTwo {i : Instr} {f : S3} {op : Int → Int → Int} {s : State} (h : Issues i f.g s)
    (he : exec i s = scalarTwo i f op s) :
    EndsS i f.sd.toNat (stBack f.st (BitVec.ofInt (stWidth f.st) (op (stArg f.st (S3.a f s)) (stArg f.st (S3.b f s))))) s := by
  refine endsS_of_setS h he ?_ f.sd.isLt
  rw [writeS_eq, stExt_eq]

/-! ### Division (R99) -/

theorem ofInt_neg_one (w : Nat) : BitVec.ofInt w (-1) = BitVec.allOnes w := by
  rw [← BitVec.neg_one_eq_allOnes, BitVec.ofInt_neg]; rfl

theorem toInt_eq_zero_iff {w : Nat} {b : BitVec w} : b.toInt = 0 ↔ b = 0 := by
  rw [← BitVec.toInt_inj]; simp

theorem natCast_toNat_eq_zero_iff {w : Nat} {b : BitVec w} : (b.toNat : Int) = 0 ↔ b = 0 := by
  rw [← BitVec.toNat_inj]; simp

theorem ofInt_stDiv_signed {w : Nat} (a b : BitVec w) :
    BitVec.ofInt w (stDiv a.toInt b.toInt) = if b = 0 then BitVec.allOnes w else a.sdiv b := by
  have hquot : BitVec.ofInt w (a.toInt.tdiv b.toInt) = a.sdiv b :=
    BitVec.eq_of_toInt_eq (by rw [BitVec.toInt_ofInt, BitVec.toInt_sdiv])
  rw [stDiv, apply_ite (BitVec.ofInt w), ofInt_neg_one, hquot]
  exact if_congr toInt_eq_zero_iff rfl rfl

theorem ofInt_stDiv_unsigned {w : Nat} (a b : BitVec w) :
    BitVec.ofInt w (stDiv a.toNat b.toNat) = if b = 0 then BitVec.allOnes w else a.udiv b := by
  have hquot : BitVec.ofInt w ((a.toNat : Int).tdiv b.toNat) = a.udiv b := by
    rw [← Int.ofNat_tdiv, BitVec.ofInt_natCast]
    exact (BitVec.ofNat_toNat w (a.udiv b)).trans (BitVec.setWidth_eq _)
  rw [stDiv, apply_ite (BitVec.ofInt w), ofInt_neg_one, hquot]
  exact if_congr natCast_toNat_eq_zero_iff rfl rfl

theorem ofInt_stRem_signed {w : Nat} (a b : BitVec w) :
    BitVec.ofInt w (stRem a.toInt b.toInt) = if b = 0 then a else a.srem b := by
  rw [stRem, apply_ite (BitVec.ofInt w), ← BitVec.toInt_srem, BitVec.ofInt_toInt, BitVec.ofInt_toInt]
  exact if_congr toInt_eq_zero_iff rfl rfl

theorem ofInt_stRem_unsigned {w : Nat} (a b : BitVec w) :
    BitVec.ofInt w (stRem a.toNat b.toNat) = if b = 0 then a else a.umod b := by
  have hrem : BitVec.ofInt w ((a.toNat : Int).tmod b.toNat) = a.umod b := by
    rw [← Int.ofNat_tmod, BitVec.ofInt_natCast]
    exact (BitVec.ofNat_toNat w (a.umod b)).trans (BitVec.setWidth_eq _)
  rw [stRem, apply_ite (BitVec.ofInt w), hrem, BitVec.ofInt_natCast, BitVec.ofNat_toNat, BitVec.setWidth_eq]
  exact if_congr natCast_toNat_eq_zero_iff rfl rfl

theorem srem_neg_one {w : Nat} (a : BitVec w) : a.srem (-1) = 0 := by
  apply BitVec.eq_of_toInt_eq
  rw [BitVec.toInt_srem, show (-1 : BitVec w) = BitVec.allOnes w from BitVec.neg_one_eq_allOnes, BitVec.toInt_allOnes]
  split
  · simp
  · rename_i hw
    obtain rfl : w = 0 := by omega
    rw [Subsingleton.elim a 0]; simp

theorem stBack_zero (t : STy) : stBack t 0 = 0 := by
  unfold stBack; split <;> simp [BitVec.signExtend]

/-! ### The signedness that SDIV and SDIVN demand (R99) -/

/-- A legal instruction breaks no rule that its word alone shows. -/
theorem Issues.reject_none {i : Instr} {g : Guard} {s : State} (h : Issues i g s) : reject? i = none := by
  obtain ⟨hlegal, -⟩ := h
  unfold illegal at hlegal
  split at hlegal
  · cases hlegal
  · assumption

open WellFormed in
theorem s3two_stOk {f : S3} {ok : Bool} (h : s3two f ok = none) : ok = true := by
  cases ok with
  | true => rfl
  | false => unfold s3two s3 pick at h; split at h <;> simp at h

/-- Settles O15. SDIV and SDIVN divide under the one signedness that they accept, SREM under each; the most negative value over
minus one follows from what the bit-vector quotient and remainder give there. -/
theorem scalarDivision : Obligations.ScalarDivision := by
  intro s f a b sg
  have hs : sg = true → stArg f.st (S3.a f s) = a.toInt ∧ stArg f.st (S3.b f s) = b.toInt := fun hsg => by
    simp only [stArg_eq]; exact ⟨if_pos hsg, if_pos hsg⟩
  have hu : sg = false → stArg f.st (S3.a f s) = a.toNat ∧ stArg f.st (S3.b f s) = b.toNat := fun hsg => by
    simp only [stArg_eq]; exact ⟨if_neg (by simp [← hsg, sg]), if_neg (by simp [← hsg, sg])⟩
  have hdiv : Issues (.sdiv f) f.g s →
      EndsS (.sdiv f) f.sd.toNat (stBack f.st (if b = 0 then BitVec.allOnes (stWidth f.st) else a.sdiv b)) s := fun h => by
    obtain ⟨ha, hb⟩ := hs (s3two_stOk h.reject_none)
    rw [← ofInt_stDiv_signed, ← ha, ← hb]
    exact endsS_of_scalarTwo h rfl
  have hrem : Issues (.srem f) f.g s →
      EndsS (.srem f) f.sd.toNat (stBack f.st (if b = 0 then a else if sg then a.srem b else a.umod b)) s := fun h => by
    cases hsg : sg with
    | true =>
      obtain ⟨ha, hb⟩ := hs hsg
      simp only [if_true]
      rw [← ofInt_stRem_signed, ← ha, ← hb]
      exact endsS_of_scalarTwo h rfl
    | false =>
      obtain ⟨ha, hb⟩ := hu hsg
      simp only [Bool.false_eq_true, if_false]
      rw [← ofInt_stRem_unsigned, ← ha, ← hb]
      exact endsS_of_scalarTwo h rfl
  have hone : (-1 : BitVec (stWidth f.st)) ≠ 0 := by cases f.st <;> decide
  refine ⟨hdiv, fun h => ?_, hrem, fun h ha hb => ?_, fun h hsg ha hb => ?_⟩
  · obtain ⟨ha, hb⟩ := hu (by simpa using s3two_stOk h.reject_none)
    rw [← ofInt_stDiv_unsigned, ← ha, ← hb]
    exact endsS_of_scalarTwo h rfl
  · have hends := hdiv h
    rw [hb, if_neg hone, ha] at hends
    rw [ha, ← BitVec.intMin_sdiv_neg_one]
    exact hends
  · have hends := hrem h
    rw [hb, if_neg hone, if_pos hsg, srem_neg_one, stBack_zero] at hends
    exact hends

end Sys2Proof.Machine
end

section
/-!
PROOFS. SHFL, VRDL, VWRL and the moves of predicates (R126, R130, R131).
-/

namespace Sys2Proof.Machine

theorem lowS_lt (x : BitVec 10) : lowS x < 128 := Nat.mod_lt _ (by decide)

theorem tagCode_append (c : BitVec 4) (x : BitVec 8) : tagCode (c ++ x) = c.toNat := by
  have hx := x.isLt
  rw [tagCode, BitVec.toNat_append, ← Nat.shiftLeft_add_eq_or_of_lt hx, Nat.shiftLeft_eq]
  omega

theorem mkTag_toNat (c : BitVec 4) (scale : Int) : mkTag c.toNat scale = c ++ BitVec.ofInt 8 scale := by
  rw [mkTag, BitVec.ofNat_toNat, BitVec.setWidth_eq]

/-- The tag of a raw form: that of Va, or TY with the scale of Va where TY keeps one (R88, R90, R106). -/
theorem rawTag_eq (f : V3) (h : Hart) : V3.rawTag f h =
    if f.ty = 0 then (h.r.getV f.va.toNat).tag
    else if f.ty = 6 ∨ f.ty = 7 then f.ty ++ (h.r.getV f.va.toNat).tag.setWidth 8 else f.ty ++ 0#8 := by
  have hscale : BitVec.ofInt 8 (V3.scaleA f h) = (h.r.getV f.va.toNat).tag.setWidth 8 := by
    rw [V3.scaleA, tagScale, BitVec.ofInt_toInt]
    exact (BitVec.setWidth_eq_extractLsb' (by decide)).symm
  have hcode : ∀ k < 16, f.ty.toNat = k ↔ f.ty = BitVec.ofNat 4 k := fun k hk => by
    rw [← BitVec.toNat_inj, BitVec.toNat_ofNat, Nat.mod_eq_of_lt hk]
  unfold V3.rawTag normTag
  rw [mkTag_toNat, tagCode_append, mkTag_toNat, hscale,
    if_congr (or_congr (hcode 6 (by decide)) (hcode 7 (by decide))) rfl rfl]
  by_cases h15 : f.ty.toNat = 15
  · have hty := (hcode 15 (by decide)).mp h15
    simp [hty, poisonTag]
  · rw [if_neg h15]; rfl

theorem EndsV.congr {i : Instr} {d : Nat} {tag : BitVec 12} {m : Word} {v v' : Nat → Word} {s : State}
    (h : EndsV i d tag m v s) (hv : ∀ l, l < 32 → v l = v' l) : EndsV i d tag m v' s := by
  obtain ⟨t, ht, hw, hlanes⟩ := h
  exact ⟨t, ht, hw, fun l hl hm => (hlanes l hl hm).trans (hv l hl)⟩

/-- The lane that SHFL moves into lane `l` when its mode asks for lane `x`: one outside the register leaves lane `l` its own
(R126). -/
def laneWithin (l : Nat) (x : Int) : Nat := if x < 0 ∨ x > 31 then l else x.toNat

theorem laneWithin_natCast {l x : Nat} (h : x < 32) : laneWithin l x = x := by
  rw [laneWithin, if_neg (by omega), Int.toNat_natCast]
theorem laneWithin_sub {l : Nat} (n : Nat) (h : l < 32) : laneWithin l ((l : Int) - n) = if n ≤ l then l - n else l := by
  unfold laneWithin; split <;> split <;> omega
theorem laneWithin_add (l n : Nat) : laneWithin l ((l : Int) + n) = if l + n ≤ 31 then l + n else l := by
  unfold laneWithin; split <;> split <;> omega

/-- SHFL's distance, or the one lane it broadcasts (R126). -/
def shflCount (f : V3) (h : Hart) : Nat := if f.bs then (V3.sb f h).toNat % 32 else f.sub.toNat / 4 % 32

theorem shflCount_lt (f : V3) (h : Hart) : shflCount f h < 32 := by
  unfold shflCount; split <;> exact Nat.mod_lt _ (by decide)

/-- The lane that SHFL moves into lane `l` (R126). -/
def shflFrom (f : V3) (h : Hart) (l : Nat) : Nat :=
  match f.sub.toNat % 4 with
  | 0 => if f.bs then shflCount f h else ((h.r.getV f.vb.toNat).lane l).toNat % 32
  | 1 => if shflCount f h ≤ l then l - shflCount f h else l
  | 2 => if l + shflCount f h ≤ 31 then l + shflCount f h else l
  | _ => l ^^^ shflCount f h

/-- The model's choice of lane, mode by mode. -/
theorem laneWithin_shfl (f : V3) (h : Hart) {l : Nat} (hl : l < 32) :
    laneWithin l (if f.sub.toNat % 4 = 0 then (if f.bs then (shflCount f h : Int) else ((V3.laneB f h l).toNat : Int) % 32)
      else if f.sub.toNat % 4 = 1 then (l : Int) - shflCount f h
      else if f.sub.toNat % 4 = 2 then (l : Int) + shflCount f h
      else (Nat.xor l (shflCount f h) : Nat)) = shflFrom f h l := by
  have hn := shflCount_lt f h
  have hmode : f.sub.toNat % 4 = 0 ∨ f.sub.toNat % 4 = 1 ∨ f.sub.toNat % 4 = 2 ∨ f.sub.toNat % 4 = 3 := by omega
  rcases hmode with hm | hm | hm | hm <;> simp only [shflFrom, hm]
  · cases hbs : f.bs with
    | true => exact laneWithin_natCast hn
    | false =>
      simp only [V3.laneB, hbs]
      exact laneWithin_natCast (Nat.mod_lt _ (by decide))
  · exact laneWithin_sub _ hl
  · exact laneWithin_add _ _
  · exact laneWithin_natCast (Nat.xor_lt_two_pow (n := 5) hl hn)

/-- VWRL writes one lane, where the mask holds it (R130). -/
theorem vwrlRes_eq (f : V3) (h : Hart) :
    let q := if f.sub.toNat / 32 % 2 = 1 then (h.r.getS (lowS f.va)).toNat % 32 else f.sub.toNat % 32
    vwrlRes f h = if (V3.mask f h).getLsbD q then
        laneRes h f.vd (1#32 <<< q) (if f.ty = 0 then (h.r.getV f.vd.toNat).tag else V3.tag f) (fun _ => (V3.sb f h).setWidth 32)
      else {} := by
  intro q
  rw [← maskOf_beq_lane]
  rfl

/-- PCOUNT ends with the count or the lowest lane of the predicate's lanes in the mask (R131). -/
theorem pcount_ends {f : V3} {s : State} (h : Issues (.pcount f) f.g s) :
    EndsS (.pcount f) (lowS f.vd) (BitVec.ofNat 64
      (let x := s.cur.r.getP f.pp.toNat &&& laneMask s.cur f.g
       if f.sub.toNat % 2 = 1 then (lanesOf x).headD 32 else (lanesOf x).length)) s :=
  endsS_of_setS h (show exec _ s = execPcount f s from rfl) rfl (lowS_lt _)

/-- The operations of PMOV by their number (R131). -/
theorem pmovRes_eq (f : V3) (h : Hart) :
    let a := h.r.getP (f.va.toNat % 16)
    let b := h.r.getP (f.vb.toNat % 16)
    pmovRes f h = { pd := some (f.pp.toNat, match f.sub.toNat % 8 with
      | 0 => a
      | 1 => a &&& b
      | 2 => a ||| b
      | 3 => a ^^^ b
      | 4 => a &&& ~~~ b
      | 5 => ~~~ a
      | _ => V3.mask f h) } := by
  intro a b
  unfold pmovRes
  generalize f.sub.toNat % 8 = op
  match op with
  | 0 | 1 | 2 | 3 | 4 | 5 => rfl
  | op + 6 => rfl

/-- Settles O29: each form's result is a lane result, a predicate or a scalar, given by the lemma about its result. -/
theorem laneMoves : Obligations.LaneMoves := by
  intro s f r m a sb raw n src pa pb pp
  have hraw : raw = V3.rawTag f s.cur := (rawTag_eq f s.cur).symm
  refine ⟨fun h => ?shfl, fun h => ?vrdl, fun h => ?vwrl, fun h hsub => ?count, fun h hsub => ?lowest, fun h => ?pmov,
    fun h => ?pfroms, fun h => ?ptos⟩
  case shfl =>
    rw [hraw]
    refine (endsV_of_laneRes h rfl rfl).congr fun l hl => congrArg a ?_
    exact laneWithin_shfl f s.cur hl
  case vrdl => exact endsS_of_setS h (show exec _ s = execVrdl f s from rfl) rfl (lowS_lt _)
  case vwrl =>
    refine ⟨fun hq => endsV_of_laneRes h rfl ((vwrlRes_eq f s.cur).trans (if_pos hq)), fun hq => ?_⟩
    have hres : vwrlRes f s.cur = {} := (vwrlRes_eq f s.cur).trans (if_neg (ne_true_of_eq_false hq))
    obtain ⟨t, ht, hr, hstep, hothers, -⟩ := retire_mapRegs (vwrlRes f s.cur).write s
    refine ⟨t, ?_, ?_, hstep, hothers⟩
    · rw [vecExec_writes h rfl (by rw [hres]) (by rw [hres]), ht]
    · rw [hr, hres]; rfl
  case count =>
    have hends := pcount_ends h
    rw [if_neg (by omega), length_lanesOf] at hends
    exact hends
  case lowest =>
    have hends := pcount_ends h
    rw [if_pos hsub, headD_lanesOf] at hends
    exact hends
  case pmov => exact endsP_of_result h rfl (pmovRes_eq f s.cur)
  case pfroms => exact endsP_of_result h rfl rfl
  case ptos => exact endsS_of_setS h (show exec _ s = execPtos f s from rfl) rfl (lowS_lt _)

end Sys2Proof.Machine
end

section
/-!
PROOFS. VOTE, DMASK and VMATCH (R127, R132, R134).
-/

namespace Sys2Proof.Machine

/-- The operations of VOTE by their number (R127). -/
theorem voteRes_eq (f : V3) (h : Hart) :
    let m := V3.mask f h
    let x := h.r.getP (f.va.toNat % 16) &&& m
    voteRes f h = { pd := some (f.pp.toNat, match f.sub.toNat % 4 with
      | 0 => if x = m then m else 0
      | 1 => if x ≠ 0 then m else 0
      | 2 => x
      | _ => if x = 0 ∨ x = m then m else 0) } := by
  intro m x
  unfold voteRes
  generalize f.sub.toNat % 4 = op
  match op with
  | 0 | 1 | 2 => rfl
  | op + 3 => rfl

/-- VMATCH gives each lane of the mask the lanes that hold its value (R134). -/
theorem getLsbD_matchMask (f : V3) (h : Hart) (l : Nat) {q : Nat} (hq : q < 32) :
    (matchMask f h l).getLsbD q = ((V3.mask f h).getLsbD q && V3.laneA f h q == V3.laneA f h l) := by
  rw [matchMask, getLsbD_maskOf, decide_eq_true hq, Bool.true_and]

/-- A lane of the mask is the lowest of its group when no lower one holds its value (R134). -/
theorem headD_matchMask (f : V3) (h : Hart) {l : Nat} (hl : l < 32) (hm : (V3.mask f h).getLsbD l = true) :
    ((lanesOf (matchMask f h l)).headD 32 == l)
      = (List.range l).all (fun q => !((V3.mask f h).getLsbD q && V3.laneA f h q == V3.laneA f h l)) := by
  rw [Bool.eq_iff_iff, beq_iff_eq, headD_lanesOf_eq_iff hl, getLsbD_matchMask f h l hl, hm, List.all_eq_true]
  simp only [BEq.rfl, Bool.and_self, true_and, List.mem_range, Bool.not_eq_true']
  exact forall₂_congr fun q hq => by rw [getLsbD_matchMask f h l (hq.trans hl)]

/-- VMATCH writes its vector register lane by lane and its predicate. -/
theorem vmatchRes_write (f : V3) (h : Hart) : (vmatchRes f h).write h.r =
    (h.r.setV f.vd.toNat ((h.r.getV f.vd.toNat).withLanes (V3.mask f h) 0x200 (fun l => matchMask f h l))).setP f.pp.toNat
      (maskOf (fun l => (V3.mask f h).getLsbD l && (lanesOf (matchMask f h l)).headD 32 == l)) := rfl

/-- Settles O30: the predicates lane by lane, and for VMATCH the vector register and the lowest lanes of its groups. -/
theorem laneMasks : Obligations.LaneMasks := by
  intro s f m a x sb
  refine ⟨fun h => endsP_of_result h rfl (voteRes_eq f s.cur), fun h => ?dmask, fun h => ?vmatch⟩
  case dmask =>
    refine ⟨_, endsP_of_result h rfl rfl, fun l hl => ?_⟩
    rw [getLsbD_maskOf, decide_eq_true hl, Bool.true_and]
    rfl
  case vmatch =>
    obtain ⟨t, ht, hr, hstep, hothers, -⟩ := retire_mapRegs (vmatchRes f s.cur).write s
    have hkept : RegsKept [] [f.vd.toNat] [f.pp.toNat] [] s.cur.r t.cur.r := by
      rw [hr]; exact VRes.write_kept (vmatchRes f s.cur) s.cur.r
    rw [vmatchRes_write] at hr
    have hv : t.cur.r.getV f.vd.toNat = (s.cur.r.getV f.vd.toNat).withLanes m 0x200 (fun l => matchMask f s.cur l) := by
      rw [hr, Regs.getV_setP, Regs.getV_setV_same _ _ f.vd.isLt]
      rfl
    refine ⟨t, (vecExec_writes h rfl rfl rfl).trans ht, fun l q _ hq hm => ?_, fun l _ hm => ?_, by rw [hv]; rfl, fun hp l hl => ?_,
      hkept, hstep, hothers⟩
    · rw [hv, VReg.lane_withLanes_selected _ _ _ hm, getLsbD_matchMask f s.cur l hq]
      rfl
    · rw [hv, VReg.lane_withLanes_masked _ _ _ hm]
    · have hp0 : f.pp.toNat ≠ 0 := fun h0 => hp (BitVec.eq_of_toNat_eq h0)
      rw [hr, Regs.getP_setP_same _ _ hp0 f.pp.isLt, getLsbD_maskOf, decide_eq_true hl, Bool.true_and]
      show (m.getLsbD l && _) = _
      cases hm : m.getLsbD l with
      | false => rfl
      | true => rw [headD_matchMask f s.cur hl hm]; rfl

end Sys2Proof.Machine
end

section
/-!
PROOFS. VCMX (R133): the pair of lanes that differ in one bit, and when they exchange their values.
-/

namespace Sys2Proof.Machine

/-- Lanes whose bit `j` is clear have their partner above them. -/
theorem xor_two_pow_of_clear {l j : Nat} (h : l / 2 ^ j % 2 = 0) : l ^^^ 2 ^ j = l + 2 ^ j := by
  induction j generalizing l with
  | zero =>
    have hl : l % 2 = 0 := by simpa using h
    have hdiv : (l ^^^ 1) / 2 = l / 2 := by rw [Nat.xor_div_two, Nat.xor_zero]
    have hmod := Nat.xor_mod_two_eq_one (a := l) (b := 1)
    rw [Nat.pow_zero]
    omega
  | succ j ih =>
    have hhalf : l / 2 / 2 ^ j % 2 = 0 := by rwa [Nat.div_div_eq_div_mul, ← Nat.pow_succ']
    have hdiv := Nat.xor_div_two (a := l) (b := 2 ^ (j + 1))
    have hmod := Nat.xor_mod_two_eq_one (a := l) (b := 2 ^ (j + 1))
    rw [Nat.pow_succ', Nat.mul_div_cancel_left _ two_pos, ih hhalf] at hdiv
    rw [Nat.pow_succ'] at hmod ⊢
    omega

theorem xor_two_pow_of_partner {l j : Nat} (h : l / 2 ^ j % 2 = 0) : (l + 2 ^ j) ^^^ 2 ^ j = l := by
  rw [← xor_two_pow_of_clear h, Nat.xor_assoc, Nat.xor_self, Nat.xor_zero]

/-! ### Which lane moves where -/

/-- The pair whose lower lane is `lo` sorts upwards (R133). -/
def cmxAscends (f : V3) (lo : Nat) : Prop :=
  f.sub.toNat / 8 % 8 = 5 ∨ (f.sub.toNat / 8 % 8 ≤ 4 ∧ lo / 2 ^ (f.sub.toNat / 8 % 8) % 2 = 0)

/-- The pair of lanes `lo` and `hi` stands in the wrong order (R133). -/
def cmxExchanges (f : V3) (h : Hart) (lo hi : Nat) : Prop :=
  (cmxAscends f lo ∧ cmxKey f.ty (V3.laneA f h hi) < cmxKey f.ty (V3.laneA f h lo))
    ∨ (¬ cmxAscends f lo ∧ cmxKey f.ty (V3.laneA f h lo) < cmxKey f.ty (V3.laneA f h hi))

/-- A lane whose partner is outside the mask keeps its value (R133). -/
theorem cmxSrc_of_alone {f : V3} {h : Hart} {l : Nat} (hp : (V3.mask f h).getLsbD (l ^^^ 2 ^ (f.sub.toNat % 8)) = false) :
    cmxSrc f h l = l := by
  unfold cmxSrc
  exact if_neg (ne_true_of_eq_false hp)

/-- The model's test of a pair (R133). -/
theorem cmxSwap_iff (f : V3) (h : Hart) (lo hi : Nat) :
    (if (f.sub.toNat / 8 % 8 == 5 || (f.sub.toNat / 8 % 8 ≤ 4 && lo / 2 ^ (f.sub.toNat / 8 % 8) % 2 == 0))
      then decide (cmxKey f.ty (V3.laneA f h lo) > cmxKey f.ty (V3.laneA f h hi))
      else decide (cmxKey f.ty (V3.laneA f h lo) < cmxKey f.ty (V3.laneA f h hi))) = true ↔ cmxExchanges f h lo hi := by
  have hasc : (f.sub.toNat / 8 % 8 == 5 || (f.sub.toNat / 8 % 8 ≤ 4 && lo / 2 ^ (f.sub.toNat / 8 % 8) % 2 == 0)) = true
      ↔ cmxAscends f lo := by simp [cmxAscends]
  unfold cmxExchanges
  rw [← hasc]
  split <;> rename_i hup <;> simp [hup]

/-- A lane whose partner is in the mask takes its partner's value when the pair exchanges, and keeps its own otherwise. -/
theorem cmxSrc_of_pair {f : V3} {h : Hart} {l p : Nat} (hlp : l ^^^ 2 ^ (f.sub.toNat % 8) = p)
    (hp : (V3.mask f h).getLsbD p = true) :
    (cmxExchanges f h (min l p) (max l p) → cmxSrc f h l = p) ∧ (¬ cmxExchanges f h (min l p) (max l p) → cmxSrc f h l = l) := by
  subst hlp
  have hsrc : cmxSrc f h l = if _ then _ else l := if_pos hp
  rw [hsrc]
  exact ⟨fun hx => if_pos ((cmxSwap_iff f h _ _).mpr hx), fun hx => if_neg (mt (cmxSwap_iff f h _ _).mp hx)⟩

/-- What VCMX moves: the payload, or the keys themselves (R133). -/
def cmxMoved (f : V3) (h : Hart) (l : Nat) : Word :=
  if f.sub.toNat / 64 % 2 = 1 then (h.r.getV f.vb.toNat).lane l else V3.laneA f h l

theorem vcmxRes_eq (f : V3) (h : Hart) :
    vcmxRes f h = laneRes h f.vd (V3.mask f h) (if f.sub.toNat / 64 % 2 = 1 then (h.r.getV f.vb.toNat).tag else mkTag f.ty.toNat 0)
      (fun l => cmxMoved f h (cmxSrc f h l)) := by
  simp only [vcmxRes, cmxMoved, V3.tag, beq_iff_eq]

/-! ### The forms that VCMX accepts -/

theorem v3_reserved {u : WellFormed.V3Use} (f : V3) (h : u.subOk = false) : WellFormed.v3 u f = some .reservedBits := by
  simp [WellFormed.v3, WellFormed.pick, h]

theorem vcmx_illegal {f : V3} (s : State) (h : 5 ≤ f.sub.toNat % 8 ∨ f.sub.toNat / 8 % 8 = 7) :
    illegal (.vcmx f) s = some 2 := by
  have hrej : reject? (.vcmx f) = some .reservedBits := by
    apply v3_reserved
    simp
    omega
  simp only [illegal, hrej]
  rfl

/-- Settles O32. Of a pair in the mask the lower lane is the smaller number, so each lane's choice is the pair's (R133). -/
theorem compareExchange : Obligations.CompareExchange := by
  intro s f
  refine ⟨vcmx_illegal s, fun h => ?_⟩
  intro m a pay src key b k asc
  obtain ⟨t, ht, hw, hlanes⟩ := endsV_of_laneRes h rfl (vcmxRes_eq f s.cur)
  refine ⟨t, ht, hw, fun l hl hm hp => ?_, fun lo hlo hclear hm hp => ?_⟩
  · exact (hlanes l hl hm).trans (congrArg (cmxMoved f s.cur) (cmxSrc_of_alone hp))
  · intro x y
    have hx : x = cmxMoved f s.cur (cmxSrc f s.cur lo) := hlanes lo hlo hm
    have hy : y = cmxMoved f s.cur (cmxSrc f s.cur (lo + b)) := hlanes (lo + b) (BitVec.lt_of_getLsbD hp) hp
    obtain ⟨hlow, hlowKept⟩ := cmxSrc_of_pair (h := s.cur) (xor_two_pow_of_clear hclear) hp
    obtain ⟨hhigh, hhighKept⟩ := cmxSrc_of_pair (h := s.cur) (xor_two_pow_of_partner hclear) hm
    rw [Nat.min_eq_left (Nat.le_add_right _ _), Nat.max_eq_right (Nat.le_add_right _ _)] at hlow hlowKept
    rw [Nat.min_eq_right (Nat.le_add_right _ _), Nat.max_eq_left (Nat.le_add_right _ _)] at hhigh hhighKept
    split
    · rename_i hex
      rw [hx, hy, hlow hex, hhigh hex]
      exact ⟨rfl, rfl⟩
    · rename_i hex
      rw [hx, hy, hlowKept hex, hhighKept hex]
      exact ⟨rfl, rfl⟩

end Sys2Proof.Machine
end

section
/-!
PROOFS. The branch forms (R32, R52, R299), and the forms of class 0x1 that Bowler does not execute (R57).
-/

namespace Sys2Proof.Machine

/-! ### Where a branch ends -/

/-- Executing `i` answers a next state that stands at `target`, still to be checked, when the transfer is `taken`, and at the
next slot when it is not; its registers are `r`, and everything else is as it was. -/
def EndsBranch (i : Instr) (taken : Prop) (target : Dword) (r : Regs) (s : State) : Prop :=
  ∃ t, exec i s = .next t
    ∧ (taken → t.cur.c.pc = target ∧ t.cur.c.arriving = true)
    ∧ (¬ taken → t.cur.c.pc = nextPc s.cur.c.pc ∧ t.cur.c.arriving = false)
    ∧ t.cur.c.issued = s.cur.c.issued + 1 ∧ t.cur.r = r ∧ OthersKept s t ∧ HartKept s.cur t.cur

/-- An instruction that passes its checks, changes the registers by `f` and branches on `b`. -/
theorem endsBranch_of_branch {i : Instr} {g : Guard} {s : State} {k : State → Out} {b : Bool} {taken : Prop} {target : Dword}
    (f : Regs → Regs) (h : Issues i g s) (he : exec i s = issue i g s k) (hk : k s = branch b target (s.mapRegs f))
    (hb : b = true ↔ taken) : EndsBranch i taken target (f s.cur.r) s := by
  have hexec : exec i s = branch b target (s.mapRegs f) := by rw [he, issue_of_issues k h, hk]
  rw [EndsBranch, hexec, ← hb]
  cases b with
  | true =>
    obtain ⟨t, ht, hpc, harr, hissued, hothers, hhart, hr⟩ := transfer_eq target (s.mapRegs f)
    exact ⟨t, ht, fun _ => ⟨hpc, harr⟩, fun h => absurd rfl h, hissued, hr, othersKept_of_mapRegs hothers, hhart⟩
  | false =>
    obtain ⟨t, ht, hr, ⟨hpc, hissued, harr, -⟩, hothers, hhart⟩ := retire_mapRegs f s
    exact ⟨t, ht, fun h => absurd h Bool.false_ne_true, fun _ => ⟨hpc, harr⟩, hissued, hr, hothers, hhart⟩

/-! ### Class 0x1 in a Bowler stream (R57) -/

/-- CLASS and FN are the two parts of the ten bits at the head of the word (R35). -/
theorem classFn_of_encode {i : Instr} {w : BitVec 96} (h : encode i = some w) :
    classFn i = ((w.extractLsb' 86 10).toNat / 64, (w.extractLsb' 86 10).toNat % 64) := by
  have hw := w.isLt
  rw [classFn, h, BitVec.extractLsb'_toNat, Nat.shiftRight_eq_div_pow, Prod.mk.injEq]
  omega

theorem classFn_of_encFB {i : Instr} {c : BitVec 10} {f : FB} (h : encode i = some (encFB c f)) :
    classFn i = (c.toNat / 64, c.toNat % 64) := by
  rw [classFn_of_encode h, code_encFB]

theorem illegal_of_wellFormed {i : Instr} (s : State) (h : i.wellFormed = true) : illegal i s = illegalHere i s := by
  rw [illegal, Option.isNone_iff_eq_none.mp h]

/-- Of class 0x1, Bowler executes the functions up to 6 alone; the system register forms, which have reasons of their own,
are of other classes. -/
theorem illegal_class1_bowler {i : Instr} {s : State} {n : Nat} (hr : s.cur.role = .bowler) (hwf : i.wellFormed = true)
    (hc : classFn i = (1, n)) (hn : 6 < n) : illegal i s = some 6 := by
  have hform : bowlerForm (1, n) = false := decide_eq_false (Nat.not_le.mpr hn)
  rw [illegal_of_wellFormed s hwf]
  simp only [illegalHere, hr, hc, hform]
  cases i with
  | srr f | srw f => rw [classFn_of_encode rfl, code_encSI] at hc; cases hc
  | srrp f | srwp f => rw [classFn_of_encode rfl, code_encFX] at hc; cases hc
  | _ => rfl

/-- Settles O21. Each form branches on its condition, LOOP after its count is written; BRANY and BRALL are the functions 11 and
12 of class 0x1. -/
theorem branches : Obligations.Branches := by
  intro s f t0 m Goes p x
  refine ⟨fun h => ?br, fun h => ?brc, fun h => ?bri, fun h => ?brany, fun h => ?brall, fun h => ?loop,
    fun hr hwf => ?any, fun hr hwf => ?all⟩
  case br => exact endsBranch_of_branch (b := true) id h rfl rfl (iff_of_true rfl trivial)
  case brc => exact endsBranch_of_branch id h rfl rfl Iff.rfl
  case bri => exact endsBranch_of_branch (b := true) id h rfl rfl (iff_of_true rfl trivial)
  case brany => exact endsBranch_of_branch id h rfl rfl bne_iff_ne
  case brall =>
    refine endsBranch_of_branch id h rfl rfl ?_
    rw [Bool.and_eq_true, beq_iff_eq, bne_iff_ne]
  case loop => exact endsBranch_of_branch (fun r => r.setS f.sa.toNat x) h (show exec _ s = execLoop f s from rfl) rfl bne_iff_ne
  case any => exact illegal_class1_bowler (n := 11) hr hwf (classFn_of_encFB (c := 0x04B) rfl) (by decide)
  case all => exact illegal_class1_bowler (n := 12) hr hwf (classFn_of_encFB (c := 0x04C) rfl) (by decide)

end Sys2Proof.Machine
end
